-- ==== Sys2Proof/Word.lean ====
section
/-!
DEFINITION. The fixed-width words of the display core (00_scope.md R7, 30_encoding.md R70).
-/

namespace Sys2Proof

/-- An unsigned 8-bit value: a buffer cell, a wire address, a wire data byte (R7). -/
abbrev Byte := BitVec 8

/-- The 32-bit command word `C` of a transfer (R70). -/
abbrev CmdWord := BitVec 32

/-- The 64-bit data operand `D` of a transfer (R70). -/
abbrev DataWord := BitVec 64

end Sys2Proof
end

