-- ==== Sys2Proof/Syntax.lean ====
section
/-!
DEFINITION. The commands of the block, one constructor per row of spec/opcode_table.json (30_encoding.md R73),
with the operands of R75 at the widths of R71. An operand's type IS its field, so every term is a
well-formed command. The assembly lines of R79 and R80 stand beside them, with unbounded operands.
-/

namespace Sys2Proof

/-- A command with its operands (R71, R75). -/
inductive Instr where
  /-- SET_PIXEL `row, col, on` (R110). -/
  | setPixel (row : BitVec 8) (col : BitVec 16) (on : Bool)
  /-- SET_ROW `row, all_on` (R112). -/
  | setRow (row : BitVec 8) (allOn : Bool)
  /-- SET_ROW_BITS `row, D` (R114): `D` carries one byte per module (R54). -/
  | setRowBits (row : BitVec 8) (data : DataWord)
  /-- FLUSH (R133). -/
  | flush
  /-- SCROLL `wrap` (R150). -/
  | scroll (wrap : Bool)
  /-- SET_VLEN `n` (R170). -/
  | setVlen (n : BitVec 16)
  /-- SET_INTENSITY `level` (R172). -/
  | setIntensity (level : BitVec 4)
  /-- SHUTDOWN (R174). -/
  | shutdown
  /-- REVERSE `b` (R101). -/
  | reverse (b : Byte)
  deriving DecidableEq, Repr

/-- The nine rows of the opcode map (R73), without operands. -/
inductive Opcode where
  | setPixel
  | setRow
  | setRowBits
  | flush
  | scroll
  | setVlen
  | setIntensity
  | shutdown
  | reverse
  deriving DecidableEq, Repr

/-- One transfer of the command port (R70). -/
structure Transfer where
  /-- The command word `C`. -/
  c : CmdWord
  /-- The data operand `D`. -/
  d : DataWord
  deriving DecidableEq, Repr

/-- Why a command word is ILLEGAL: the two cases of R76. -/
inductive IllegalWord where
  /-- `OP` is 0x0 or one of 0xA..0xF. -/
  | reservedOpcode (op : BitVec 4)
  /-- `OP` names a command, but a must-be-zero bit of its format is 1. -/
  | mustBeZeroBitSet (op : BitVec 4)
  deriving DecidableEq, Repr

/-- A line of the assembly of R79. Operands are numbers of any size: one too wide for its field is an assembly
error (`Asm.wellFormed`). -/
inductive Asm where
  | setpix (row col v : Nat)
  | setrow (row v : Nat)
  | rowbits (row : Nat) (bytes : List Nat)
  | flush
  | scroll (w : Nat)
  | setvlen (n : Nat)
  | intens (level : Nat)
  | shutdown
  | rev (b : Nat)
  /-- `.word w`: the raw command word. -/
  | word (w : Nat)
  deriving DecidableEq, Repr

/-- A source line: a line of R79, or a pseudo-instruction of R80. -/
inductive AsmSource where
  | line (a : Asm)
  | pixon (row col : Nat)
  | pixoff (row col : Nat)
  | rowon (row : Nat)
  | rowoff (row : Nat)
  | clear
  | fill
  | scrollw
  | scrolln
  deriving DecidableEq, Repr

end Sys2Proof
end

