-- ==== Sys2Proof/Decode.lean ====
section
/-!
DEFINITION. The decoder of the command port (30_encoding.md R71 to R78) and, after it, the encoder (R79).
-/

namespace Sys2Proof

/-! ### Fields of the command word (R71) -/

/-- `OP = C[31:28]`. -/
def CmdWord.op (c : CmdWord) : BitVec 4 := c.extractLsb' 28 4

/-- `V = C[24]`. -/
def CmdWord.v (c : CmdWord) : Bool := c.getLsbD 24

/-- `ROW = C[23:16]`. -/
def CmdWord.row (c : CmdWord) : BitVec 8 := c.extractLsb' 16 8

/-- `COL = C[15:0]`. -/
def CmdWord.col (c : CmdWord) : BitVec 16 := c.extractLsb' 0 16

/-- `N = C[15:0]`. -/
def CmdWord.n (c : CmdWord) : BitVec 16 := c.extractLsb' 0 16

/-- `LVL = C[3:0]`. -/
def CmdWord.lvl (c : CmdWord) : BitVec 4 := c.extractLsb' 0 4

/-- `BYTE = C[7:0]`. -/
def CmdWord.byte (c : CmdWord) : Byte := c.extractLsb' 0 8

/-! ### The opcode map (R72, R73) -/

/-- The row of the opcode map a command belongs to. -/
def Instr.opcode : Instr → Opcode
  | .setPixel _ _ _ => .setPixel
  | .setRow _ _ => .setRow
  | .setRowBits _ _ => .setRowBits
  | .flush => .flush
  | .scroll _ => .scroll
  | .setVlen _ => .setVlen
  | .setIntensity _ => .setIntensity
  | .shutdown => .shutdown
  | .reverse _ => .reverse

/-- The rows of the map, in the order of R73. -/
def Opcode.all : List Opcode :=
  [.setPixel, .setRow, .setRowBits, .flush, .scroll, .setVlen, .setIntensity, .shutdown, .reverse]

/-- The `OP` value of a row (R73). -/
def Opcode.code : Opcode → BitVec 4
  | .setPixel => 0x1#4
  | .setRow => 0x2#4
  | .setRowBits => 0x3#4
  | .flush => 0x4#4
  | .scroll => 0x5#4
  | .setVlen => 0x6#4
  | .setIntensity => 0x7#4
  | .shutdown => 0x8#4
  | .reverse => 0x9#4

/-- The "match" column of R73. -/
def Opcode.pattern : Opcode → CmdWord
  | .setPixel => 0x10000000#32
  | .setRow => 0x20000000#32
  | .setRowBits => 0x30000000#32
  | .flush => 0x40000000#32
  | .scroll => 0x50000000#32
  | .setVlen => 0x60000000#32
  | .setIntensity => 0x70000000#32
  | .shutdown => 0x80000000#32
  | .reverse => 0x90000000#32

/-- The "mask" column of R73. -/
def Opcode.mask : Opcode → CmdWord
  | .setPixel => 0xFE000000#32
  | .setRow => 0xFE00FFFF#32
  | .setRowBits => 0xFF00FFFF#32
  | .flush => 0xFFFFFFFF#32
  | .scroll => 0xFEFFFFFF#32
  | .setVlen => 0xFFFF0000#32
  | .setIntensity => 0xFFFFFFF0#32
  | .shutdown => 0xFFFFFFFF#32
  | .reverse => 0xFFFFFF00#32

/-- The must-be-zero bits of a row's format (R72): 27..25 in FP; 27..25, 15..0 in FR; 27..24, 15..0 in FB;
27..0 in FN; 27..25, 23..0 in FS; 27..16 in FL; 27..4 in FI; 27..8 in FX. -/
def Opcode.mustBeZero : Opcode → CmdWord
  | .setPixel => 0x0E000000#32
  | .setRow => 0x0E00FFFF#32
  | .setRowBits => 0x0F00FFFF#32
  | .flush => 0x0FFFFFFF#32
  | .scroll => 0x0EFFFFFF#32
  | .setVlen => 0x0FFF0000#32
  | .setIntensity => 0x0FFFFFF0#32
  | .shutdown => 0x0FFFFFFF#32
  | .reverse => 0x0FFFFF00#32

/-- R73: "A word selects a command exactly when `C & mask = match`." -/
def Opcode.selects (o : Opcode) (c : CmdWord) : Bool := decide (c &&& o.mask = o.pattern)

/-- The command a transfer carries once its row is known, its operands assembled as R75 says: no sign
extension, no scaling, no offset. Only SET_ROW_BITS reads `D` (R77). -/
def Opcode.build (o : Opcode) (t : Transfer) : Instr :=
  match o with
  | .setPixel => .setPixel t.c.row t.c.col t.c.v
  | .setRow => .setRow t.c.row t.c.v
  | .setRowBits => .setRowBits t.c.row t.d
  | .flush => .flush
  | .scroll => .scroll t.c.v
  | .setVlen => .setVlen t.c.n
  | .setIntensity => .setIntensity t.c.lvl
  | .shutdown => .shutdown
  | .reverse => .reverse t.c.byte

/-- Which of R76's two cases an illegal word falls under. -/
def CmdWord.illegality (c : CmdWord) : IllegalWord :=
  if Opcode.all.any fun o => decide (o.code = c.op) then .mustBeZeroBitSet c.op else .reservedOpcode c.op

/-- R74, the table search, total on every transfer. (The test `LIFE = DEAD` that R74 puts first is
`Machine.accept`: a refused command has the same outcome whatever it decodes to; log 12.) -/
def decode (t : Transfer) : Except IllegalWord Instr :=
  match Opcode.all.find? fun o => o.selects t.c with
  | some o => .ok (o.build t)
  | none => .error t.c.illegality

/-! ### The numbering of the host's words (log 14) -/

/-- The transfer whose 96 bits are the low `nbits` bits of `w`: `C` is bits 31..0 and `D` bits 95..32; the bits at and
above `nbits` are 0. -/
def Transfer.ofBits (nbits w : Nat) : Transfer where
  c := BitVec.ofNat 32 (w % 2 ^ nbits)
  d := BitVec.ofNat 64 (w % 2 ^ nbits / 2 ^ 32)

/-- The instruction the decoder reads from a word of spec/opcode_table.json. -/
def decodeTableWord (nbits w : Nat) : Option Instr :=
  match decode (Transfer.ofBits nbits w) with
  | .ok i => some i
  | .error _ => none

/-! ### The encoder (R79) -/

/-- A field's value put at bit `lo` of a command word that is 0 elsewhere. -/
def field {w : Nat} (v : BitVec w) (lo : Nat) : CmdWord := v.setWidth 32 <<< lo

/-- The command word of a command: `OP` and the operand fields at their places (R72), every other bit 0. -/
def Instr.word : Instr → CmdWord
  | .setPixel row col on => field 0x1#4 28 ||| field (BitVec.ofBool on) 24 ||| field row 16 ||| field col 0
  | .setRow row allOn => field 0x2#4 28 ||| field (BitVec.ofBool allOn) 24 ||| field row 16
  | .setRowBits row _ => field 0x3#4 28 ||| field row 16
  | .flush => field 0x4#4 28
  | .scroll wrap => field 0x5#4 28 ||| field (BitVec.ofBool wrap) 24
  | .setVlen n => field 0x6#4 28 ||| field n 0
  | .setIntensity level => field 0x7#4 28 ||| field level 0
  | .shutdown => field 0x8#4 28
  | .reverse b => field 0x9#4 28 ||| field b 0

/-- The data operand of a command: 0 but for SET_ROW_BITS (the `D` column of R79). -/
def Instr.operand : Instr → DataWord
  | .setRowBits _ data => data
  | .setPixel _ _ _ => 0
  | .setRow _ _ => 0
  | .flush => 0
  | .scroll _ => 0
  | .setVlen _ => 0
  | .setIntensity _ => 0
  | .shutdown => 0
  | .reverse _ => 0

/-- The transfer that carries a command. -/
def encode (i : Instr) : Transfer where
  c := i.word
  d := i.operand

end Sys2Proof
end

