-- ==== Sys2Proof/Config.lean ====
section
/-!
DEFINITION. The implementation parameters of 00_scope.md R4. `CHAIN` and `REV` are the configuration
inputs that reset samples; the rest are the OPEN parameters, which the machine takes as an argument.
-/

namespace Sys2Proof

/-- The OPEN parameters of one instance of the block (R4); fixed for the instance (R234). -/
structure Params where
  /-- `VMAX`, the largest virtual length the buffer can hold. -/
  vmax : Nat
  /-- `REG_DECODE`. -/
  regDecode : Byte
  /-- `REG_INTENSITY`. -/
  regIntensity : Byte
  /-- `REG_SCANLIMIT`. -/
  regScanlimit : Byte
  /-- `REG_SHUTDOWN`. -/
  regShutdown : Byte
  /-- `REG_DISPLAYTEST`. -/
  regDisplaytest : Byte
  /-- `VAL_DECODE_NONE`. -/
  valDecodeNone : Byte
  /-- `INIT_INTENSITY`. -/
  initIntensity : Byte
  /-- `VAL_SCANLIMIT_ALL`. -/
  valScanlimitAll : Byte
  /-- `VAL_SHUTDOWN_EXIT`. -/
  valShutdownExit : Byte
  /-- `VAL_SHUTDOWN_ENTER`. -/
  valShutdownEnter : Byte
  /-- `VAL_DISPLAYTEST_OFF`. -/
  valDisplaytestOff : Byte
  deriving DecidableEq, Repr

/-- What reset needs to construct a block (R4, R6): the two configuration inputs and the parameters. -/
structure Config where
  /-- `CHAIN`, the number of modules physically wired. -/
  chain : Nat
  /-- `REV`, the wiring orientation flag. -/
  rev : Bool
  /-- The OPEN parameters. -/
  params : Params
  deriving DecidableEq, Repr

/-- The initial brightness of the instance `Params.suggested`. R4 gives `INIT_INTENSITY` a range, 0..15,
and NO default: a free value (log 3). -/
opaque Params.openInitIntensity : BitVec 4

/-- The instance that `Machine.State.reset` is built with: R4's suggested defaults (log 2, PRESUMED, unsafe),
and the free value for `INIT_INTENSITY`. Nothing but `State.reset` uses it. -/
def Params.suggested : Params where
  vmax := 64
  regDecode := 0x09#8
  regIntensity := 0x0A#8
  regScanlimit := 0x0B#8
  regShutdown := 0x0C#8
  regDisplaytest := 0x0F#8
  valDecodeNone := 0x00#8
  initIntensity := Params.openInitIntensity.setWidth 8
  valScanlimitAll := 0x07#8
  valShutdownExit := 0x01#8
  valShutdownEnter := 0x00#8
  valDisplaytestOff := 0x00#8

/-- The configuration of `Machine.State.reset`: `chain_len=4`, `reverse_bits=false`, the one full configuration
the source's own scenario names (95_test_vectors.md X12; log 1, DESIGN CHOICE, unsafe). -/
def Config.suggested : Config where
  chain := 4
  rev := false
  params := Params.suggested

end Sys2Proof
end

