-- ==== Sys2Proof/Machine/Bus.lean ====
section
/-!
DEFINITION. The block's output: Bus Sink events, frames (20_memory.md R56 to R58, 42_flush.md R130), the initialization
frames of reset (70_reset_and_hazards.md R231), and the informative wire image (R62).
-/

namespace Sys2Proof.Machine

/-- An event of the output stream (R58). -/
inductive Event where
  /-- `Sel`, appended by `BusSelect()`. -/
  | sel
  /-- `Wr(a, d)`, appended by `BusWrite(a, d)`. -/
  | wr (addr data : Byte)
  /-- `Desel`, appended by `BusDeselect()`. -/
  | desel
  deriving DecidableEq, Repr

/-- The row registers' wire address, `zext_8(r + 1)` (R56, R130). -/
def wireAddr (r : Nat) : Byte := BitVec.ofNat 8 (r + 1)

/-- One frame (R57, R58, R130): a select, one write to address `a` per byte, the byte of the highest module index
first, a deselect. `bytes` is indexed by module. -/
def frame (a : Byte) (bytes : List Byte) : List Event :=
  .sel :: (bytes.reverse.map (.wr a) ++ [.desel])

/-- One register of every module written with one value: `chain` copies of `Wr(a, d)` in one frame (R172, R174, R231). -/
def registerFrame (chain : Nat) (a d : Byte) : List Event :=
  frame a (List.replicate chain d)

/-- The thirteen register writes of reset, in the order of R231. -/
def initWrites (p : Params) : List (Byte × Byte) :=
  (List.range 8).map (fun r => (wireAddr r, 0x00#8)) ++
    [(p.regDecode, p.valDecodeNone), (p.regIntensity, p.initIntensity), (p.regScanlimit, p.valScanlimitAll),
      (p.regShutdown, p.valShutdownExit), (p.regDisplaytest, p.valDisplaytestOff)]

/-- The initialization frames (R231). -/
def initFrames (chain : Nat) (p : Params) : List Event :=
  (initWrites p).flatMap fun w => registerFrame chain w.1 w.2

/-- What the observer of R62 keeps for one module and one address while it reads the stream: the writes of the
open frame, newest first, and the last byte a completed frame delivered. -/
structure Latch where
  /-- The writes since the last `Sel`, newest first: the tail goes first, so entry `k` is module `k`'s. -/
  opened : List (Byte × Byte)
  /-- `Wimg[k][a]`, none while no completed frame has delivered a byte (log 15). -/
  last : Option Byte
  deriving DecidableEq, Repr

/-- One event seen by the observer of module `k` and address `a`: the frame is applied at its `Desel` (R62). -/
def Latch.see (k : Nat) (a : Byte) (l : Latch) : Event → Latch
  | .sel => ⟨[], l.last⟩
  | .wr a' d => ⟨(a', d) :: l.opened, l.last⟩
  | .desel =>
    match l.opened[k]? with
    | some (a', d) => ⟨[], if a' = a then some d else l.last⟩
    | none => ⟨[], l.last⟩

/-- `Wimg[k][a]` after a stream of events (R62). No operation of the block reads it. -/
def wimg (events : List Event) (k : Nat) (a : Byte) : Option Byte :=
  (events.foldl (Latch.see k a) ⟨[], none⟩).last

/-- How many `Wr` events a stream holds (the unit of R246). -/
def countWrites (events : List Event) : Nat :=
  events.countP fun e => match e with
    | .wr _ _ => true
    | .sel => false
    | .desel => false

end Sys2Proof.Machine
end

