-- ==== Sys2Proof/Machine/Memory.lean ====
section
/-!
DEFINITION. The Virtual Buffer's storage (10_state.md R21) as a list of cells in one canonical form: keys strictly
rising, no cell that holds what an unlisted key reads as. Nothing here decides which keys exist: the commands do.
-/

namespace Sys2Proof.Machine

/-- The storage of `VB`: the cells that do not hold 0x00, by rising key (`cellAddr`). -/
abbrev Memory := List Host.Cell

/-- What an unlisted cell reads as: 0x00, the reset value R36 gives every cell. -/
def Memory.unlisted : Byte := 0x00#8

/-- The byte a key reads as. -/
def Memory.readAt : Memory → Nat → Byte
  | [], _ => Memory.unlisted
  | (a, v) :: rest, k => if a = k then v else Memory.readAt rest k

/-- The storage without a key. -/
def Memory.eraseAt : Memory → Nat → Memory
  | [], _ => []
  | (a, v) :: rest, k => if a = k then Memory.eraseAt rest k else (a, v) :: Memory.eraseAt rest k

/-- The storage with a cell put before the first greater key. -/
def Memory.insertAt : Memory → Nat → Byte → Memory
  | [], k, v => [(k, v)]
  | (a, w) :: rest, k, v => if k < a then (k, v) :: (a, w) :: rest else (a, w) :: Memory.insertAt rest k v

/-- `VB[r][m] <- v` (00_scope.md R8): writing what an unlisted cell reads as removes the cell. -/
def Memory.writeAt (mem : Memory) (k : Nat) (v : Byte) : Memory :=
  if v = Memory.unlisted then mem.eraseAt k else (mem.eraseAt k).insertAt k v

/-- The canonical form. -/
def Memory.wf : Memory → Bool
  | [] => true
  | (a, v) :: rest => decide (v ≠ Memory.unlisted) && rest.all (fun c => decide (a < c.1)) && Memory.wf rest

/-- Every cell 0x00: the storage after reset (R36) and after SET_VLEN (R170). -/
def Memory.zeroed : Memory := []

end Sys2Proof.Machine
end

