-- ==== Sys2Proof/Machine/State.lean ====
section
/-!
DEFINITION. The state of the block (10_state.md R20), its outputs and inputs, the reasons a step can stop, and reset (R36).
-/

namespace Sys2Proof.Machine

/-- `LIFE` (R30). -/
inductive Life where
  /-- ALIVE: commands are accepted. -/
  | alive
  /-- DEAD: after SHUTDOWN; every command is refused (60_exceptions.md R202). -/
  | dead
  deriving DecidableEq, Repr

/-- What the host does at one command boundary: it presents a transfer (30_encoding.md R70), or it applies reset with
the configuration inputs at the values reset samples (70_reset_and_hazards.md R230). -/
inductive HostInput where
  | command (t : Transfer)
  | reset (chain : Nat) (rev : Bool)
  deriving DecidableEq, Repr

/-- Reasons to stop with a fault. -/
inductive Fault where
  /-- Raised by the observation port's reads (`observeCell`, `observePixel`) for a cell outside `r < 8`, `m < VLEN`, which
  R34 does not let the host read. No step raises it. Safe: nothing is known of such a read. -/
  | outsideBuffer (row module : Nat)
  deriving DecidableEq, Repr

/-- Reasons to answer that a behaviour has no meaning. -/
inductive Refusal where
  /-- Raised by `exec` for an instruction without a meaning; no arm raises it in this model. Safe. -/
  | notModelled (mnemonic : String)
  /-- Raised by a reset whose configuration fails 00_scope.md R6: "the model refuses to construct it". Safe. -/
  | invalidConfiguration (chain : Nat)
  deriving DecidableEq, Repr

/-- The block's state (R20), its output stream (20_memory.md R58), the refusal mark (60_exceptions.md R202), the OPEN
parameters of the instance (00_scope.md R4) and the host's inputs that it has not taken yet. -/
structure State where
  /-- `VB` (R21). -/
  vb : Memory
  /-- `VLEN` (R25). -/
  vlen : Nat
  /-- `DIRTY`, bit `r` for row `r` (R26). -/
  dirty : BitVec 8
  /-- `CHAIN` (R27). -/
  chain : Nat
  /-- `REV` (R27). -/
  rev : Bool
  /-- `STATUS` (R28). -/
  status : Byte
  /-- `RESULT` (R29). -/
  result : Byte
  /-- `LIFE` (R30). -/
  life : Life
  /-- `CI` (R31). -/
  ci : Nat
  /-- The refusal mark (R202). -/
  refusalMark : Bool
  /-- The events emitted so far, oldest first (R58). -/
  events : List Event
  /-- The OPEN parameters (R4); no step writes them (R234). -/
  params : Params
  /-- The model's input: what the host will do, next first (log 4). -/
  port : List HostInput
  deriving DecidableEq, Repr

/-- The block right after reset in a configuration (R36, R230, R231): every piece of state at its reset value, and
the initialization frames emitted. -/
def State.resetWith (k : Config) : State where
  vb := Memory.zeroed
  vlen := k.chain
  dirty := 0x00#8
  chain := k.chain
  rev := k.rev
  status := 0x00#8
  result := 0x00#8
  life := .alive
  ci := 0
  refusalMark := false
  events := initFrames k.chain k.params
  params := k.params
  port := []

/-- The machine right after reset, in the configuration of logs 1 to 3, nothing presented on the command port. -/
def State.reset : State := State.resetWith Config.suggested

end Sys2Proof.Machine
end

