-- ==== Sys2Proof/Machine/Flags.lean ====
section
/-!
DEFINITION. The block's flags: the Row Dirty Set (10_state.md R26) and the `STATUS` codes (60_exceptions.md R200).
-/

namespace Sys2Proof.Machine

/-- `OK` (R200). -/
def statusOk : Byte := 0x00#8

/-- `E_ALLOC` (R200). -/
def statusAlloc : Byte := 0x01#8

/-- `E_RANGE` (R200). -/
def statusRange : Byte := 0x02#8

/-- `E_ILLEGAL` (R200). -/
def statusIllegal : Byte := 0x03#8

/-- `DIRTY[r] = 1`. -/
def State.isDirty (s : State) (r : Nat) : Bool := s.dirty.getLsbD r

/-- `DIRTY[r] <- 1`. -/
def State.setDirty (s : State) (r : Nat) : State := { s with dirty := s.dirty ||| (0x01#8 <<< r) }

/-- `DIRTY[r] <- 0`. -/
def State.clearDirty (s : State) (r : Nat) : State := { s with dirty := s.dirty &&& ~~~(0x01#8 <<< r) }

/-- `DIRTY[r] <- 1` for every row (44_control.md R170). -/
def State.setAllDirty (s : State) : State := { s with dirty := 0xFF#8 }

/-- How many rows are dirty, `popcount(DIRTY)` (42_flush.md R135). -/
def State.dirtyCount (s : State) : Nat := [0, 1, 2, 3, 4, 5, 6, 7].countP fun r => s.dirty.getLsbD r

/-- `done` (00_scope.md R10): `STATUS <- OK`. -/
def State.done (s : State) : State := { s with status := statusOk }

/-- `fail(code)` (R10): `STATUS <- code`, and the command ends. -/
def State.fail (s : State) (code : Byte) : State := { s with status := code }

end Sys2Proof.Machine
end

