-- ==== Sys2Proof/Machine/Operands.lean ====
section
/-!
DEFINITION. Operand assembly and addressing: the bytes of the data operand (20_memory.md R54), the module and bit of a
column (10_state.md R23), the key of a cell, and the Bit Codec (40_codec.md R100).
-/

namespace Sys2Proof.Machine

/-- The rows, ascending (42_flush.md R132). -/
def rows : List Nat := [0, 1, 2, 3, 4, 5, 6, 7]

/-- `raw[i] = D[8i+7 : 8i]` (R54). -/
def rawByte (d : DataWord) (i : Nat) : Byte := d.extractLsb' (8 * i) 8

/-- `module = col / 8` (R75, R110). -/
def columnModule (col : Nat) : Nat := col / 8

/-- `bit_position = col mod 8` (R75, R110). -/
def columnBit (col : Nat) : Nat := col % 8

/-- The key `VB[r][m]` is stored under, for `r < 8` (log 9): distinct cells have distinct keys. -/
def cellAddr (r m : Nat) : Nat := 8 * m + r

/-- `Reverse(b)` (R100): bit `k` of the result is bit `7 - k` of `b`. -/
def reverseByte (b : Byte) : Byte :=
  BitVec.ofBool (b.getLsbD 0) ++ BitVec.ofBool (b.getLsbD 1) ++ BitVec.ofBool (b.getLsbD 2) ++
    BitVec.ofBool (b.getLsbD 3) ++ BitVec.ofBool (b.getLsbD 4) ++ BitVec.ofBool (b.getLsbD 5) ++
    BitVec.ofBool (b.getLsbD 6) ++ BitVec.ofBool (b.getLsbD 7)

/-- `Enc(b)` (10_state.md R24): the codec if and only if `REV = 1`. -/
def enc (rev : Bool) (b : Byte) : Byte := if rev then reverseByte b else b

/-- A byte with bit `k` set or cleared (41_buffer.md R110). -/
def withBit (b : Byte) (k : Nat) (on : Bool) : Byte :=
  if on then b ||| (0x01#8 <<< k) else b &&& ~~~(0x01#8 <<< k)

/-- The byte SET_ROW writes to every module (R112). -/
def fillByte (allOn : Bool) : Byte := if allOn then 0xFF#8 else 0x00#8

end Sys2Proof.Machine
end

