-- ==== Sys2Proof/WellFormed.lean ====
section
/-!
DEFINITION. The checks a configuration (00_scope.md R6) and an assembly line (30_encoding.md R79) must pass.
An `Instr` needs none: the types of its operands are the fields of R71, so an operand that does not fit cannot be written.
-/

namespace Sys2Proof

/-- The part of R6 that concerns the OPEN parameters: `8 ≤ VMAX ≤ 8192` and `INIT_INTENSITY ≤ 15`. -/
def Params.wellFormed (p : Params) : Bool :=
  decide (8 ≤ p.vmax) && decide (p.vmax ≤ 8192) && decide (p.initIntensity.toNat ≤ 15)

/-- R6: a block is instantiated only with a configuration that passes (`REV ∈ {0, 1}` by its type). -/
def Config.wellFormed (k : Config) : Bool :=
  decide (1 ≤ k.chain) && decide (k.chain ≤ 8) && k.params.wellFormed

/-- The assumption of 20_memory.md R65: none of the five control registers lies in 1..8, the row registers. -/
def Params.controlsApart (p : Params) : Bool :=
  [p.regDecode, p.regIntensity, p.regScanlimit, p.regShutdown, p.regDisplaytest].all
    fun a => decide (a.toNat = 0) || decide (8 < a.toNat)

/-- R79: every operand fits its field (the widths of R71). DESIGN CHOICE (log 13): a byte list holds at most the eight bytes
of `D`, and may be empty. -/
def Asm.wellFormed : Asm → Bool
  | .setpix row col v => decide (row < 256) && decide (col < 65536) && decide (v < 2)
  | .setrow row v => decide (row < 256) && decide (v < 2)
  | .rowbits row bytes => decide (row < 256) && decide (bytes.length ≤ 8) && bytes.all fun b => decide (b < 256)
  | .flush => true
  | .scroll w => decide (w < 2)
  | .setvlen n => decide (n < 65536)
  | .intens level => decide (level < 16)
  | .shutdown => true
  | .rev b => decide (b < 256)
  | .word w => decide (w < 4294967296)

end Sys2Proof
end

