-- ==== Sys2Proof/Machine/Ops.lean ====
section
/-!
DEFINITION. The operations the commands share: access to the buffer (00_scope.md R8), emission of frames
(R9, 42_flush.md R130, R131), accepting and refusing a command (10_state.md R31, 60_exceptions.md R202), an illegal
word (30_encoding.md R74), and reset (70_reset_and_hazards.md R230). The block has no trap to take and none
to return from (60_exceptions.md R203): `State.fail` is all an error does.
-/

namespace Sys2Proof.Machine

/-- The outcome of a step of this machine. -/
abbrev StepOutcome := Host.Outcome State Fault Refusal

/-! ### The Virtual Buffer -/

/-- `VB[r][m]` (R8). -/
def State.readCell (s : State) (r m : Nat) : Byte := s.vb.readAt (cellAddr r m)

/-- `VB[r][m] <- v` (R8). -/
def State.writeCell (s : State) (r m : Nat) (v : Byte) : State := { s with vb := s.vb.writeAt (cellAddr r m) v }

/-- The pixel `P(r, c) = VB[r][c / 8][c mod 8]` (10_state.md R23). -/
def State.pixel (s : State) (r c : Nat) : Bool := (s.readCell r (columnModule c)).getLsbD (columnBit c)

/-! ### The bus -/

/-- Events appended to the output stream, in order (R9, R58). -/
def State.emit (s : State) (es : List Event) : State := { s with events := s.events ++ es }

/-- `Proj(r)`, indexed by module (10_state.md R24). -/
def State.proj (s : State) (r : Nat) : List Byte := (List.range s.chain).map fun i => enc s.rev (s.readCell r i)

/-- `RowWrite(r, bytes)` (R130). -/
def State.rowWrite (s : State) (r : Nat) (bytes : List Byte) : State := s.emit (frame (wireAddr r) bytes)

/-- A row transmission: `RowWrite(r, Proj(r))` (R131). -/
def State.transmitRow (s : State) (r : Nat) : State := s.rowWrite r (s.proj r)

/-- One control register of every physical module written with `d`, no codec (44_control.md R172, R174). -/
def State.writeRegister (s : State) (a d : Byte) : State := s.emit (registerFrame s.chain a d)

/-! ### Accepting a command -/

/-- A refused command (R202): the mark is set, nothing else changes, no event, `CI` stays (log 6). -/
def State.refuse (s : State) : State := { s with refusalMark := true }

/-- `CI <- CI + 1` (R31). -/
def State.advance (s : State) : State := { s with ci := s.ci + 1 }

/-- A command on the port: refused while `LIFE = DEAD` (R202, first in the order of R205), else accepted: `CI` advances
and the command's body runs. -/
def accept (s : State) (body : State → State) : StepOutcome :=
  match s.life with
  | .dead => .next s.refuse
  | .alive => .next (body s.advance)

/-- `Execute(ILLEGAL)` (R74): `fail(E_ILLEGAL)` and no other effect. -/
def execIllegal (s : State) : StepOutcome := accept s fun s => s.fail statusIllegal

/-! ### Reset -/

/-- Reset applied at a command boundary (R230): the whole state as `State.resetWith` has it, whatever it was. What goes on
is what is not the block's state (log 7): the stream, after whose events the initialization frames stand, the instance's
OPEN parameters (R234), and the host's further inputs. -/
def State.resetTo (s : State) (chain : Nat) (rev : Bool) : State :=
  { State.resetWith ⟨chain, rev, s.params⟩ with
    events := s.events ++ initFrames chain s.params
    port := s.port }

/-- Reset constructs a block only in a well-formed configuration (00_scope.md R6). -/
def applyReset (s : State) (chain : Nat) (rev : Bool) : StepOutcome :=
  if (Config.wellFormed ⟨chain, rev, s.params⟩) then .next (s.resetTo chain rev)
  else .refused (.invalidConfiguration chain)

end Sys2Proof.Machine
end

