-- ==== Sys2Proof/Machine/Buffer.lean ====
section
/-!
DEFINITION. The buffer mutation commands SET_PIXEL, SET_ROW and SET_ROW_BITS (41_buffer.md).
-/

namespace Sys2Proof.Machine

/-- R110, the in-range branch: one bit of `VB[row][col / 8]` written, the row marked dirty. -/
def State.writePixel (s : State) (row col : Nat) (on : Bool) : State :=
  (s.writeCell row (columnModule col) (withBit (s.readCell row (columnModule col)) (columnBit col) on)).setDirty row

/-- SET_PIXEL (R110, R111): a silent no-op outside `row < 8`, `col < 8·VLEN`. -/
def execSetPixel (row : BitVec 8) (col : BitVec 16) (on : Bool) (s : State) : StepOutcome :=
  accept s fun s =>
    if 8 ≤ row.toNat ∨ 8 * s.vlen ≤ col.toNat then s.done else (s.writePixel row.toNat col.toNat on).done

/-- R112, the loop over the modules of a row. -/
def State.fillRow (s : State) (row : Nat) (v : Byte) : State :=
  (List.range s.vlen).foldl (fun t m => t.writeCell row m v) s

/-- SET_ROW (R112): a no-op for `row ≥ 8`. -/
def execSetRow (row : BitVec 8) (allOn : Bool) (s : State) : StepOutcome :=
  accept s fun s =>
    if 8 ≤ row.toNat then s.done else ((s.fillRow row.toNat (fillByte allOn)).setDirty row.toNat).done

/-- SET_ROW_BITS (R114): the operand's bytes for the physical modules, straight to the wire; a no-op for `row ≥ 8`. -/
def execSetRowBits (row : BitVec 8) (data : DataWord) (s : State) : StepOutcome :=
  accept s fun s =>
    if 8 ≤ row.toNat then s.done else (s.rowWrite row.toNat ((List.range s.chain).map (rawByte data))).done

end Sys2Proof.Machine
end

