-- ==== Sys2Proof/Machine/Codec.lean ====
section
/-!
DEFINITION. REVERSE (40_codec.md).
-/

namespace Sys2Proof.Machine

/-- REVERSE (R101): `RESULT <- Reverse(b)`. -/
def execReverse (b : Byte) (s : State) : StepOutcome :=
  accept s fun s => State.done { s with result := reverseByte b }

end Sys2Proof.Machine
end

