-- ==== Sys2Proof/Machine/Control.lean ====
section
/-!
DEFINITION. SET_VLEN, SET_INTENSITY and SHUTDOWN (44_control.md).
-/

namespace Sys2Proof.Machine

/-- SET_VLEN (R170, R171): `E_RANGE` below `CHAIN`, `E_ALLOC` above `VMAX`, both without any other effect; else the new
length, every cell 0x00 and every row dirty. -/
def execSetVlen (n : BitVec 16) (s : State) : StepOutcome :=
  accept s fun s =>
    if n.toNat < s.chain then s.fail statusRange
    else if s.params.vmax < n.toNat then s.fail statusAlloc
    else (State.setAllDirty { s with vlen := n.toNat, vb := Memory.zeroed }).done

/-- SET_INTENSITY (R172, R173): one frame to `REG_INTENSITY`; nothing is stored. -/
def execSetIntensity (level : BitVec 4) (s : State) : StepOutcome :=
  accept s fun s => (s.writeRegister s.params.regIntensity (level.setWidth 8)).done

/-- SHUTDOWN (R174): one frame to `REG_SHUTDOWN`, and the controller's life ends. -/
def execShutdown (s : State) : StepOutcome :=
  accept s fun s =>
    { (s.writeRegister s.params.regShutdown s.params.valShutdownEnter).done with life := .dead }

end Sys2Proof.Machine
end

