-- ==== Sys2Proof/Machine/Flush.lean ====
section
/-!
DEFINITION. FLUSH (42_flush.md).
-/

namespace Sys2Proof.Machine

/-- R133, the loop's body: the row is transmitted if it is dirty, and its flag is cleared either way. -/
def State.flushRow (s : State) (r : Nat) : State :=
  (if s.isDirty r then s.transmitRow r else s).clearDirty r

/-- FLUSH (R132, R133): the rows in ascending order. -/
def execFlush (s : State) : StepOutcome :=
  accept s fun s => (rows.foldl State.flushRow s).done

end Sys2Proof.Machine
end

