-- ==== Sys2Proof/Machine/Scroll.lean ====
section
/-!
DEFINITION. SCROLL, the shift-with-carry engine (43_scroll.md).
-/

namespace Sys2Proof.Machine

/-- One row being shifted: the buffer and the running `carry` (R150, 10_state.md R33). -/
structure Shift where
  /-- The buffer so far. -/
  vb : Memory
  /-- The carry into the next lower module, 0x80 or 0x00. -/
  carry : Byte
  deriving DecidableEq, Repr

/-- R150, the inner loop's body for module `i` of row `r`. -/
def shiftModule (vlen : Nat) (wrap : Bool) (r : Nat) (a : Shift) (i : Nat) : Shift :=
  let b := a.vb.readAt (cellAddr r i)
  let carryOut := b.getLsbD 0
  let shifted := b >>> 1
  let wrapped := if i + 1 = vlen ∧ wrap = true ∧ carryOut = true then shifted ||| 0x80#8 else shifted
  { vb := a.vb.writeAt (cellAddr r i) (wrapped ||| a.carry)
    carry := if carryOut then 0x80#8 else 0x00#8 }

/-- R150, the inner loop: the modules from the tail to the head; the last carry is discarded. -/
def shiftRow (vlen : Nat) (wrap : Bool) (vb : Memory) (r : Nat) : Memory :=
  ((List.range vlen).reverse.foldl (shiftModule vlen wrap r) ⟨vb, 0x00#8⟩).vb

/-- R150, the outer loop's body: the row is shifted, then transmitted, whatever `DIRTY` holds (R151). -/
def State.scrollRow (wrap : Bool) (s : State) (r : Nat) : State :=
  State.transmitRow { s with vb := shiftRow s.vlen wrap s.vb r } r

/-- SCROLL (R150): the rows in ascending order, each shifted and then transmitted. -/
def execScroll (wrap : Bool) (s : State) : StepOutcome :=
  accept s fun s => (rows.foldl (State.scrollRow wrap) s).done

end Sys2Proof.Machine
end

