-- ==== Sys2Proof/Machine/Dispatch.lean ====
section
/-!
DEFINITION. The dispatch of a command to its meaning: one arm per constructor of Instr.
-/

namespace Sys2Proof.Machine

def exec (i : Instr) (s : State) : Host.Outcome State Fault Refusal :=
  match i with
  | .setPixel row col on => Sys2Proof.Machine.execSetPixel row col on s
  | .setRow row allOn => Sys2Proof.Machine.execSetRow row allOn s
  | .setRowBits row data => Sys2Proof.Machine.execSetRowBits row data s
  | .flush => Sys2Proof.Machine.execFlush s
  | .scroll wrap => Sys2Proof.Machine.execScroll wrap s
  | .setVlen n => Sys2Proof.Machine.execSetVlen n s
  | .setIntensity level => Sys2Proof.Machine.execSetIntensity level s
  | .shutdown => Sys2Proof.Machine.execShutdown s
  | .reverse b => Sys2Proof.Machine.execReverse b s

end Sys2Proof.Machine
end

