-- ==== Sys2Proof/Machine/Step.lean ====
section
/-!
DEFINITION. One step: the block takes the host's next input (10_state.md R31, R35).
-/

namespace Sys2Proof.Machine

/-- One command boundary to the next. A transfer is decoded and executed, or is ILLEGAL (30_encoding.md R74); a reset is
applied (70_reset_and_hazards.md R230); with nothing presented the block waits, unchanged (log 5). -/
def step (s : State) : Host.Outcome State Fault Refusal :=
  match s.port with
  | [] => .next s
  | .command t :: rest =>
    match decode t with
    | .ok i => exec i { s with port := rest }
    | .error _ => execIllegal { s with port := rest }
  | .reset chain rev :: rest => applyReset { s with port := rest } chain rev

/-- `s` with the transfer of a table word presented as the next one on the command port (log 4). -/
def State.withFetchWord (s : State) (nbits w : Nat) : State :=
  { s with port := .command (Transfer.ofBits nbits w) :: s.port }

end Sys2Proof.Machine
end

