-- ==== Sys2Proof/Machine/Assembler.lean ====
section
/-!
DEFINITION. The assembler of 30_encoding.md R79 and R80: from source text to the transfers it stands for. It is the
host's side of the command port; no step uses it. What R79 leaves open of the text is in log 13.
-/

namespace Sys2Proof.Machine

/-! ### Lines to transfers -/

/-- The `D` column of ROWBITS: byte `bi` for module `i`, a missing one 0 (R79). -/
def packBytes : List Nat → DataWord
  | [] => 0
  | b :: rest => (BitVec.ofNat 8 b).setWidth 64 ||| (packBytes rest <<< 8)

/-- The transfer of a line whose operands fit (R79). -/
def lineTransfer : Asm → Transfer
  | .setpix row col v => encode (.setPixel (BitVec.ofNat 8 row) (BitVec.ofNat 16 col) (decide (v = 1)))
  | .setrow row v => encode (.setRow (BitVec.ofNat 8 row) (decide (v = 1)))
  | .rowbits row bytes => encode (.setRowBits (BitVec.ofNat 8 row) (packBytes bytes))
  | .flush => encode .flush
  | .scroll w => encode (.scroll (decide (w = 1)))
  | .setvlen n => encode (.setVlen (BitVec.ofNat 16 n))
  | .intens level => encode (.setIntensity (BitVec.ofNat 4 level))
  | .shutdown => encode .shutdown
  | .rev b => encode (.reverse (BitVec.ofNat 8 b))
  | .word w => ⟨BitVec.ofNat 32 w, 0⟩

/-- "An operand too wide for its field is an assembly error" (R79). -/
def assembleLine (a : Asm) : Option Transfer := if a.wellFormed then some (lineTransfer a) else none

/-- The expansions of R80. -/
def expand : AsmSource → List Asm
  | .line a => [a]
  | .pixon row col => [.setpix row col 1]
  | .pixoff row col => [.setpix row col 0]
  | .rowon row => [.setrow row 1]
  | .rowoff row => [.setrow row 0]
  | .clear => (List.range 8).map fun r => .setrow r 0
  | .fill => (List.range 8).map fun r => .setrow r 1
  | .scrollw => [.scroll 1]
  | .scrolln => [.scroll 0]

/-- The transfers of a list of lines, if every line assembles. -/
def assembleLines : List Asm → Option (List Transfer)
  | [] => some []
  | a :: rest =>
    match assembleLine a, assembleLines rest with
    | some t, some ts => some (t :: ts)
    | _, _ => none

/-- The transfers of one source line. -/
def assembleSource (a : AsmSource) : Option (List Transfer) := assembleLines (expand a)

/-! ### Text to lines -/

/-- The tokens of a line. -/
inductive Token where
  | word (cs : List Char)
  | comma
  | openList
  | closeList
  deriving DecidableEq, Repr

/-- A character of a mnemonic or a number. -/
def wordChar (c : Char) : Bool := c.isAlphanum || decide (c = '.')

/-- The token of the characters read so far, last first; none for no character. -/
def wordToken (acc : List Char) : List Token := if acc.isEmpty then [] else [.word acc.reverse]

/-- The tokens of a line; `;` begins a comment (R79). DESIGN CHOICE (log 13): R79 names no blanks, and here a space, a tab
and a carriage return each separate and mean nothing else; a character with no case below is an error. -/
def tokens : List Char → List Char → Option (List Token)
  | [], acc => some (wordToken acc)
  | c :: cs, acc =>
    if c = ';' then some (wordToken acc)
    else if wordChar c then tokens cs (c :: acc)
    else if c = ' ' ∨ c = '\t' ∨ c = '\r' then (tokens cs []).map (wordToken acc ++ ·)
    else if c = ',' then (tokens cs []).map fun ts => wordToken acc ++ .comma :: ts
    else if c = '[' then (tokens cs []).map fun ts => wordToken acc ++ .openList :: ts
    else if c = ']' then (tokens cs []).map fun ts => wordToken acc ++ .closeList :: ts
    else none

/-- The value of a digit in a base; hexadecimal digits in either case (DESIGN CHOICE, log 13). -/
def digitValue (base : Nat) (c : Char) : Option Nat :=
  let v :=
    if c.isDigit then c.toNat - '0'.toNat
    else if 'a'.toNat ≤ c.toNat then c.toNat - 'a'.toNat + 10
    else if 'A'.toNat ≤ c.toNat then c.toNat - 'A'.toNat + 10
    else base
  if v < base then some v else none

/-- The value of digits read after `acc`. -/
def digits (base : Nat) : List Char → Nat → Option Nat
  | [], acc => some acc
  | c :: cs, acc =>
    match digitValue base c with
    | some v => digits base cs (base * acc + v)
    | none => none

/-- "Operands are decimal or `0x` hexadecimal" (R79). DESIGN CHOICE (log 13): no sign, no other mark (`0X`), at least one digit,
and a number that begins with zeros is decimal. -/
def number : List Char → Option Nat
  | [] => none
  | ['0', 'x'] => none
  | '0' :: 'x' :: cs => digits 16 cs 0
  | cs => digits 10 cs 0

/-- Numbers separated by commas, one comma between two numbers. DESIGN CHOICE (log 13): R79 lets a byte of ROWBITS be missing
and does not say where; here only the last ones can be, so a gap such as `[1, , 3]` is an error, as is a comma before the first
number or after the last. -/
def numberList : List Token → Option (List Nat)
  | [] => some []
  | [.word w] => (number w).map ([·])
  | .word w :: .comma :: .word w' :: rest =>
    match number w, numberList (.word w' :: rest) with
    | some n, some ns => some (n :: ns)
    | _, _ => none
  | _ => none

/-- The line of a mnemonic and its operands (the tables of R79 and R80). DESIGN CHOICE (log 13): mnemonics are spelt as the
tables spell them, and a line with more or fewer operands than its form has is an error. -/
def sourceOf (mnemonic : String) (operands : List Nat) : Option AsmSource :=
  match mnemonic, operands with
  | "SETPIX", [row, col, v] => some (.line (.setpix row col v))
  | "SETROW", [row, v] => some (.line (.setrow row v))
  | "FLUSH", [] => some (.line .flush)
  | "SCROLL", [w] => some (.line (.scroll w))
  | "SETVLEN", [n] => some (.line (.setvlen n))
  | "INTENS", [level] => some (.line (.intens level))
  | "SHUTDOWN", [] => some (.line .shutdown)
  | "REV", [b] => some (.line (.rev b))
  | ".word", [w] => some (.line (.word w))
  | "PIXON", [row, col] => some (.pixon row col)
  | "PIXOFF", [row, col] => some (.pixoff row col)
  | "ROWON", [row] => some (.rowon row)
  | "ROWOFF", [row] => some (.rowoff row)
  | "CLEAR", [] => some .clear
  | "FILL", [] => some .fill
  | "SCROLLW", [] => some .scrollw
  | "SCROLLN", [] => some .scrolln
  | _, _ => none

/-- The source line of a line's tokens: none for a line that is an error, and `some none` for an empty one, which DESIGN
CHOICE (log 13) admits. The brackets of ROWBITS are as R79 writes them, and no other line has any. -/
def parseTokens : List Token → Option (Option AsmSource)
  | [] => some none
  | .word m :: .word r :: .comma :: .openList :: rest =>
    if m = "ROWBITS".toList ∧ rest.getLast? = some .closeList then
      match number r, numberList rest.dropLast with
      | some row, some bytes => some (some (.line (.rowbits row bytes)))
      | _, _ => none
    else none
  | .word m :: rest =>
    match numberList rest with
    | some ns => (sourceOf (String.ofList m) ns).map some
    | none => none
  | _ => none

/-- One line of text. -/
def parseLine (line : List Char) : Option (Option AsmSource) :=
  match tokens line [] with
  | some ts => parseTokens ts
  | none => none

/-- The transfers of one line of text. -/
def assembleText (line : List Char) : Option (List Transfer) :=
  match parseLine line with
  | some (some a) => assembleSource a
  | some none => some []
  | none => none

/-- "One command per line" (R79): the lines of a text; `acc` is the line read so far, last character first.
DESIGN CHOICE (log 13): a line ends at a line feed and at nothing else, so a carriage return before it is a blank of `tokens`. -/
def splitLines : List Char → List Char → List (List Char)
  | [], acc => [acc.reverse]
  | c :: cs, acc => if c = '\n' then acc.reverse :: splitLines cs [] else splitLines cs (c :: acc)

/-- The transfers of lines of text, if every line assembles; one line that does not leaves no program (DESIGN CHOICE, log 13). -/
def assembleAll : List (List Char) → Option (List Transfer)
  | [] => some []
  | l :: rest =>
    match assembleText l, assembleAll rest with
    | some ts, some us => some (ts ++ us)
    | _, _ => none

/-- The command stream of a program's text, in order. -/
def assembleProgram (text : String) : Option (List Transfer) := assembleAll (splitLines text.toList [])

end Sys2Proof.Machine
end

