-- ==== Sys2Proof/Machine/Observe.lean ====
section
/-!
DEFINITION. The observation port (10_state.md R34): functions of the state, so that reading changes nothing.
-/

namespace Sys2Proof.Machine

/-- The host reads `VB[r][m]`, for `r < 8` and `m < VLEN`. DEDUCED (log 10): any other read faults. -/
def observeCell (s : State) (r m : Nat) : Except Fault Byte :=
  if r < 8 ∧ m < s.vlen then .ok (s.readCell r m) else .error (.outsideBuffer r m)

/-- The host reads the pixel `P(r, c)`, defined for `r < 8` and `c < 8·VLEN` (R23). DEDUCED (log 10): any other read faults. -/
def observePixel (s : State) (r c : Nat) : Except Fault Bool :=
  match observeCell s r (columnModule c) with
  | .ok b => .ok (b.getLsbD (columnBit c))
  | .error e => .error e

/-- All that the port shows (R34). -/
structure Observation where
  /-- The architectural buffer: eight rows of `VLEN` bytes. -/
  buffer : List (List Byte)
  vlen : Nat
  dirty : BitVec 8
  chain : Nat
  rev : Bool
  status : Byte
  result : Byte
  life : Life
  events : List Event
  deriving DecidableEq, Repr

/-- What the host sees of a state. -/
def observe (s : State) : Observation where
  buffer := rows.map fun r => (List.range s.vlen).map (s.readCell r)
  vlen := s.vlen
  dirty := s.dirty
  chain := s.chain
  rev := s.rev
  status := s.status
  result := s.result
  life := s.life
  events := s.events

end Sys2Proof.Machine
end

