-- ==== Sys2Proof/Safety.lean ====
section
/-!
DEFINITION. What counts as a well-formed state and a safe run, in the terms the statements use.
-/

namespace Sys2Proof.Machine

/-- No command has been refused since reset: a claim about a stream that presents a command after SHUTDOWN is one the
spec gives no meaning to (60_exceptions.md R202), and this is the premise that leaves it out. -/
def State.Meaningful (s : State) : Prop := s.refusalMark = false

/-- 10_state.md R25 and R37, with the bounds of 00_scope.md R6: `1 ≤ CHAIN ≤ VLEN ≤ VMAX`, `CHAIN ≤ 8` and
`8 ≤ VMAX ≤ 8192`. -/
def State.LengthsOk (s : State) : Prop :=
  1 ≤ s.chain ∧ s.chain ≤ 8 ∧ s.chain ≤ s.vlen ∧ s.vlen ≤ s.params.vmax ∧ 8 ≤ s.params.vmax ∧ s.params.vmax ≤ 8192

/-- 10_state.md R22 and R37: every cell at or beyond `VLEN` holds 0x00. -/
def State.UnusedZero (s : State) : Prop := ∀ r m, r < 8 → s.vlen ≤ m → s.readCell r m = 0x00#8

/-- 60_exceptions.md R200: `STATUS` holds one of the four codes; 0x04 to 0xFF are never written. -/
def State.StatusLegal (s : State) : Prop := s.status.toNat ≤ 3

/-- A stream made of complete frames, each with at least one write and all its writes to one address (20_memory.md R58). -/
def Framed (events : List Event) : Prop :=
  ∃ fs : List (Byte × List Byte), (∀ f ∈ fs, f.2 ≠ []) ∧ events = fs.flatMap fun f => frame f.1 f.2

/-- The invariant of the machine (10_state.md R37): it holds at reset and every step keeps it. -/
structure State.Inv (s : State) : Prop where
  lengths : s.LengthsOk
  intensity : s.params.initIntensity.toNat ≤ 15
  canonical : s.vb.wf = true
  unused : s.UnusedZero
  status : s.StatusLegal
  framed : Framed s.events

/-- `Synced(r)` (20_memory.md R65): the row registers of the physical modules hold the row's projection. -/
def State.Synced (s : State) (r : Nat) : Prop :=
  ∀ k, k < s.chain → wimg s.events k (wireAddr r) = some (enc s.rev (s.readCell r k))

/-- The property of R65: every clean row is synced. -/
def State.CleanRowsSynced (s : State) : Prop := ∀ r, r < 8 → s.isDirty r = false → s.Synced r

end Sys2Proof.Machine
end

