-- ==== Sys2Proof/Certificates/Slice0/Obligations.lean ====
section
/-!
DEFINITION. The statements about the model, one per numbered rule (or part of the spec) it formalises. `t = { s with … }`
spells out every field that may change; a field not named there is unchanged. A cell is read through
`State.readCell r m`, `r < 8`, which reaches every byte of the storage.
-/

open Sys2Proof Sys2Proof.Machine

/-! ### Encoding -/

/-- No bit of a command's encoding is dropped: decoding the encoded command gives it back, every operand at every value. -/
def Obligations.DecodeOfEncodeIsTheCommand : Prop :=
  ∀ i : Instr, decode (encode i) = .ok i

/-- Each legal word has one meaning and each meaning one word: encoding what was decoded gives the word back, and
the data operand too where the command has one. -/
def Obligations.EncodeOfDecodeIsTheWord : Prop :=
  ∀ (t : Transfer) (i : Instr), decode t = .ok i →
    (encode i).c = t.c ∧ ∀ row data, i = .setRowBits row data → (encode i).d = t.d

/-- "At most one row matches any word". -/
def Obligations.AtMostOneRowSelectsAWord : Prop :=
  ∀ (c : CmdWord) (o o' : Opcode), o.selects c = true → o'.selects c = true → o = o'

/-- R77: the data operand of a command other than SET_ROW_BITS is not examined, and of SET_ROW_BITS the bytes for
modules at or beyond `CHAIN` are not. -/
def Obligations.DataOperandNotExamined : Prop :=
  (∀ (c : CmdWord) (d d' : DataWord) (i : Instr), (∀ row data, i ≠ .setRowBits row data) →
    decode ⟨c, d⟩ = .ok i → decode ⟨c, d'⟩ = .ok i) ∧
  (∀ (row : BitVec 8) (d d' : DataWord) (s : State),
    (∀ k, k < 8 * s.chain → d.getLsbD k = d'.getLsbD k) → exec (.setRowBits row d) s = exec (.setRowBits row d') s)

/-- R76: exactly the words of the two cases are illegal, and a step that takes one, while the block is alive, advances
`CI`, sets `STATUS` to `E_ILLEGAL` and changes nothing else (the transfer leaves the port). -/
def Obligations.IllegalWordRule : Prop :=
  ∀ t : Transfer,
    let reserved := t.c.extractLsb' 28 4 = 0x0#4 ∨ 0xA#4 ≤ t.c.extractLsb' 28 4
    let mustBeZeroSet := ∃ o : Opcode, t.c.extractLsb' 28 4 = o.code ∧ t.c &&& o.mustBeZero ≠ 0#32
    (((∃ e, decode t = .error e) ↔ reserved ∨ mustBeZeroSet) ∧
      ∀ (s : State) (rest : List HostInput), s.life = .alive → s.port = .command t :: rest →
        reserved ∨ mustBeZeroSet →
        step s = .next { s with port := rest, ci := s.ci + 1, status := 0x03#8 })

/-- R81: the spec's encoding examples, each source line with its word. -/
def Obligations.EncodingExamplesOfTheSpec : Prop :=
  assembleProgram "SETPIX 0, 0, 1" = some [⟨0x11000000#32, 0#64⟩] ∧
  assembleProgram "SETPIX 3, 17, 0" = some [⟨0x10030011#32, 0#64⟩] ∧
  assembleProgram "SETPIX 8, 0, 1" = some [⟨0x11080000#32, 0#64⟩] ∧
  assembleProgram "SETROW 2, 1" = some [⟨0x21020000#32, 0#64⟩] ∧
  assembleProgram "ROWBITS 5, [0x81]" = some [⟨0x30050000#32, 0x0000000000000081#64⟩] ∧
  assembleProgram "FLUSH" = some [⟨0x40000000#32, 0#64⟩] ∧
  assembleProgram "SCROLL 1" = some [⟨0x51000000#32, 0#64⟩] ∧
  assembleProgram "SCROLL 0" = some [⟨0x50000000#32, 0#64⟩] ∧
  assembleProgram "SETVLEN 16" = some [⟨0x60000010#32, 0#64⟩] ∧
  assembleProgram "INTENS 15" = some [⟨0x7000000F#32, 0#64⟩] ∧
  assembleProgram "SHUTDOWN" = some [⟨0x80000000#32, 0#64⟩] ∧
  assembleProgram "REV 0xB0" = some [⟨0x900000B0#32, 0#64⟩] ∧
  assembleProgram ".word 0x40000001" = some [⟨0x40000001#32, 0#64⟩] ∧
  (∃ e, decode ⟨0x40000001#32, 0#64⟩ = .error e) ∧
  assembleProgram ".word 0xA0000000" = some [⟨0xA0000000#32, 0#64⟩] ∧
  (∃ e, decode ⟨0xA0000000#32, 0#64⟩ = .error e)

/-- Words written out from the spec's encodings decode to the commands they stand for. -/
def Obligations.WordsDecodeToTheirCommands : Prop :=
  decode ⟨0x11000000#32, 0#64⟩ = .ok (.setPixel 0#8 0#16 true) ∧
  decode ⟨0x10030011#32, 0#64⟩ = .ok (.setPixel 3#8 17#16 false) ∧
  decode ⟨0x21020000#32, 0#64⟩ = .ok (.setRow 2#8 true) ∧
  decode ⟨0x30050000#32, 0x81#64⟩ = .ok (.setRowBits 5#8 0x81#64) ∧
  decode ⟨0x40000000#32, 0#64⟩ = .ok .flush ∧
  decode ⟨0x51000000#32, 0#64⟩ = .ok (.scroll true) ∧
  decode ⟨0x60000010#32, 0#64⟩ = .ok (.setVlen 16#16) ∧
  decode ⟨0x7000000F#32, 0#64⟩ = .ok (.setIntensity 15#4) ∧
  decode ⟨0x80000000#32, 0#64⟩ = .ok .shutdown ∧
  decode ⟨0x900000B0#32, 0#64⟩ = .ok (.reverse 0xB0#8)

/-- The words of R79's table, field by field, for every operand that fits; and an operand too wide for its field is an
assembly error, each bound written out. Two forms of ROWBITS are the model's choice (log 13): the empty list assembles, with
every byte of the data operand 0x00, and a list of more than eight bytes is an assembly error. -/
def Obligations.AssemblyLinesGiveTheirWords : Prop :=
  (∀ row col v, row < 256 → col < 65536 → v < 2 → assembleLine (.setpix row col v) =
    some ⟨BitVec.ofNat 32 (0x1 * 2 ^ 28 + v * 2 ^ 24 + row * 2 ^ 16 + col), 0#64⟩) ∧
  (∀ row v, row < 256 → v < 2 → assembleLine (.setrow row v) =
    some ⟨BitVec.ofNat 32 (0x2 * 2 ^ 28 + v * 2 ^ 24 + row * 2 ^ 16), 0#64⟩) ∧
  (∀ row bytes, row < 256 → bytes.length ≤ 8 → (∀ b ∈ bytes, b < 256) →
    ∃ d : DataWord, assembleLine (.rowbits row bytes) = some ⟨BitVec.ofNat 32 (0x3 * 2 ^ 28 + row * 2 ^ 16), d⟩ ∧
      ∀ i, i < 8 → d.extractLsb' (8 * i) 8 = BitVec.ofNat 8 (bytes.getD i 0)) ∧
  assembleLine .flush = some ⟨0x40000000#32, 0#64⟩ ∧
  (∀ w, w < 2 → assembleLine (.scroll w) = some ⟨BitVec.ofNat 32 (0x5 * 2 ^ 28 + w * 2 ^ 24), 0#64⟩) ∧
  (∀ n, n < 65536 → assembleLine (.setvlen n) = some ⟨BitVec.ofNat 32 (0x6 * 2 ^ 28 + n), 0#64⟩) ∧
  (∀ level, level < 16 → assembleLine (.intens level) = some ⟨BitVec.ofNat 32 (0x7 * 2 ^ 28 + level), 0#64⟩) ∧
  assembleLine .shutdown = some ⟨0x80000000#32, 0#64⟩ ∧
  (∀ b, b < 256 → assembleLine (.rev b) = some ⟨BitVec.ofNat 32 (0x9 * 2 ^ 28 + b), 0#64⟩) ∧
  (∀ w, w < 2 ^ 32 → assembleLine (.word w) = some ⟨BitVec.ofNat 32 w, 0#64⟩) ∧
  (∀ row col v, 256 ≤ row ∨ 65536 ≤ col ∨ 2 ≤ v → assembleLine (.setpix row col v) = none) ∧
  (∀ row v, 256 ≤ row ∨ 2 ≤ v → assembleLine (.setrow row v) = none) ∧
  (∀ row bytes, (256 ≤ row ∨ 8 < bytes.length ∨ ∃ b ∈ bytes, 256 ≤ b) → assembleLine (.rowbits row bytes) = none) ∧
  (∀ w, 2 ≤ w → assembleLine (.scroll w) = none) ∧
  (∀ n, 65536 ≤ n → assembleLine (.setvlen n) = none) ∧
  (∀ level, 16 ≤ level → assembleLine (.intens level) = none) ∧
  (∀ b, 256 ≤ b → assembleLine (.rev b) = none) ∧
  (∀ w, 2 ^ 32 ≤ w → assembleLine (.word w) = none)

/-- R80: the pseudo-instructions and their expansions. -/
def Obligations.PseudoInstructionsExpand : Prop :=
  (∀ row col, expand (.pixon row col) = [.setpix row col 1]) ∧
  (∀ row col, expand (.pixoff row col) = [.setpix row col 0]) ∧
  (∀ row, expand (.rowon row) = [.setrow row 1]) ∧
  (∀ row, expand (.rowoff row) = [.setrow row 0]) ∧
  expand .clear = [.setrow 0 0, .setrow 1 0, .setrow 2 0, .setrow 3 0, .setrow 4 0, .setrow 5 0, .setrow 6 0, .setrow 7 0] ∧
  expand .fill = [.setrow 0 1, .setrow 1 1, .setrow 2 1, .setrow 3 1, .setrow 4 1, .setrow 5 1, .setrow 6 1, .setrow 7 1] ∧
  expand .scrollw = [.scroll 1] ∧
  expand .scrolln = [.scroll 0]

/-! ### A step -/

/-- When the transfer presented decodes to `i`, a step is `exec i` on the state whose port has gone past it. The port as a
list of inputs is the model's choice (log 4). -/
def Obligations.StepRunsTheDecodedCommand : Prop :=
  ∀ (s : State) (t : Transfer) (rest : List HostInput) (i : Instr),
    s.port = .command t :: rest → decode t = .ok i → step s = exec i { s with port := rest }

/-- The model's choice (log 5): with nothing presented on the port a step changes nothing. -/
def Obligations.StepWithNothingPresentedWaits : Prop :=
  ∀ s : State, s.port = [] → step s = .next s

/-- No command ends in a fault or a refusal outcome, in any state: errors are `STATUS` codes, and the next command runs. That
a command R202 refuses, one presented to a dead block, is a next state with the refusal mark is the model's choice (log 6). -/
def Obligations.EveryCommandAnswersANextState : Prop :=
  ∀ (i : Instr) (s : State), ∃ t, exec i s = .next t

/-- The conditions of a command in their order: refusal (log 6: a next state with the mark), `E_ILLEGAL`, `E_RANGE`,
`E_ALLOC`; else `OK`. One code is reported, whatever `STATUS` held before. -/
def Obligations.PriorityOfConditions : Prop :=
  ∀ (s : State) (t : Transfer) (rest : List HostInput), s.port = .command t :: rest →
    ∃ u, step s = .next u ∧
      if s.life = .dead then u.refusalMark = true ∧ u.status = s.status
      else u.refusalMark = s.refusalMark ∧ u.status =
        match decode t with
        | .error _ => 0x03#8
        | .ok (.setVlen n) => if n.toNat < s.chain then 0x02#8 else if s.params.vmax < n.toNat then 0x01#8 else 0x00#8
        | .ok _ => 0x00#8

/-- While the block is dead every command, and every illegal word, sets the refusal mark and changes nothing else,
no event, `CI` as it was (log 6: a next state with the mark); and no later step but a reset clears the mark. -/
def Obligations.RefusalAfterTeardown : Prop :=
  (∀ (i : Instr) (s : State), s.life = .dead → exec i s = .next { s with refusalMark := true }) ∧
  (∀ (s : State) (t : Transfer) (rest : List HostInput), s.life = .dead → s.port = .command t :: rest →
    step s = .next { s with port := rest, refusalMark := true }) ∧
  (∀ s t : State, s.refusalMark = true → (∀ chain rev rest, s.port ≠ .reset chain rev :: rest) → step s = .next t →
    t.refusalMark = true)

/-- While the block is alive no step sets the refusal mark: a run stays one the spec gives a meaning to until the first
command after SHUTDOWN. The mark in a next state is the model's choice (log 6). -/
def Obligations.OnlyADeadBlockRefuses : Prop :=
  (∀ s t : State, s.Meaningful → s.life = .alive → step s = .next t → t.Meaningful) ∧
  (∀ k : Config, (State.resetWith k).Meaningful)

/-! ### Reset -/

/-- R36 and R231: every piece of state after reset, in every well-formed configuration, and the thirteen frames. -/
def Obligations.ResetStateAndFrames : Prop :=
  ∀ k : Config, k.wellFormed = true →
    let s := State.resetWith k
    let register (a d : Byte) : List Event := [.sel] ++ List.replicate k.chain (.wr a d) ++ [.desel]
    (∀ r m, r < 8 → s.readCell r m = 0x00#8) ∧ s.vlen = k.chain ∧ (∀ r, r < 8 → s.isDirty r = false) ∧
    s.chain = k.chain ∧ s.rev = k.rev ∧ s.status = 0x00#8 ∧ s.result = 0x00#8 ∧ s.life = .alive ∧ s.ci = 0 ∧
    s.events =
      register 1#8 0x00#8 ++ register 2#8 0x00#8 ++ register 3#8 0x00#8 ++ register 4#8 0x00#8 ++
      register 5#8 0x00#8 ++ register 6#8 0x00#8 ++ register 7#8 0x00#8 ++ register 8#8 0x00#8 ++
      register k.params.regDecode k.params.valDecodeNone ++
      register k.params.regIntensity k.params.initIntensity ++
      register k.params.regScanlimit k.params.valScanlimitAll ++
      register k.params.regShutdown k.params.valShutdownExit ++
      register k.params.regDisplaytest k.params.valDisplaytestOff ∧
    countWrites s.events = 13 * k.chain

/-- Reset at any command boundary, dead or alive, restarts the block: nothing of the old state survives, not even the
refusal mark. The stream goes on (log 7: the initialization frames follow what was emitted before), and so do the
instance's parameters. -/
def Obligations.ResetRestartsTheBlock : Prop :=
  ∀ (s : State) (chain : Nat) (rev : Bool) (rest : List HostInput), s.port = .reset chain rev :: rest →
    Config.wellFormed ⟨chain, rev, s.params⟩ = true →
    step s = .next { State.resetWith ⟨chain, rev, s.params⟩ with
      events := s.events ++ (State.resetWith ⟨chain, rev, s.params⟩).events, port := rest }

/-- A block is constructed exactly in the configurations of 00_scope.md R6, and a reset in any other is refused (log 8). -/
def Obligations.ConfigurationWellFormedness : Prop :=
  ∀ (s : State) (chain : Nat) (rev : Bool) (rest : List HostInput), s.port = .reset chain rev :: rest →
    let ok := 1 ≤ chain ∧ chain ≤ 8 ∧ 8 ≤ s.params.vmax ∧ s.params.vmax ≤ 8192 ∧ s.params.initIntensity.toNat ≤ 15
    (ok → ∃ t, step s = .next t ∧ t.chain = chain ∧ t.rev = rev) ∧
    (¬ ok → step s = .refused (.invalidConfiguration chain))

/-- After reset every row register of every module holds the row's projection, 0x00, and a FLUSH emits nothing. -/
def Obligations.ResetLeavesRowsSynced : Prop :=
  ∀ k : Config, k.wellFormed = true → k.params.controlsApart = true →
    (∀ r, r < 8 → (State.resetWith k).Synced r) ∧
    (∀ r m, r < 8 → m < k.chain → wimg (State.resetWith k).events m (BitVec.ofNat 8 (r + 1)) = some 0x00#8) ∧
    ∃ t, exec .flush (State.resetWith k) = .next t ∧ t.events = (State.resetWith k).events

/-! ### The invariant -/

/-- The invariant holds right after reset, in every well-formed configuration and in `State.reset`, whose configuration is
the model's choice (logs 1 to 3). -/
def Obligations.ResetMeetsTheInvariant : Prop :=
  (∀ k : Config, k.wellFormed = true → (State.resetWith k).Inv) ∧ State.reset.Inv

/-- Every step from every state that meets the invariant gives a state that meets it: the lengths keep their order,
the storage keeps its canonical form and its unused cells 0x00, `STATUS` stays a code, the stream stays whole frames. -/
def Obligations.EveryStepKeepsTheInvariant : Prop :=
  ∀ s t : State, s.Inv → step s = .next t → t.Inv

/-- R65: clean rows match the wire, at reset and after every step that takes no SET_ROW_BITS. -/
def Obligations.CleanRowsMatchTheWire : Prop :=
  (∀ k : Config, k.wellFormed = true → k.params.controlsApart = true → (State.resetWith k).CleanRowsSynced) ∧
  (∀ s t : State, s.params.controlsApart = true → s.CleanRowsSynced →
    (∀ tr rest row data, s.port = .command tr :: rest → decode tr ≠ .ok (.setRowBits row data)) →
    step s = .next t → t.CleanRowsSynced)

/-! ### REVERSE and the codec -/

/-- R100: `Reverse` reverses the bit order and is its own inverse, and `Enc` applies it if and only if `REV = 1`. -/
def Obligations.ReverseOfAByte : Prop :=
  (∀ (b : Byte) (k : Nat), k < 8 → (reverseByte b).getLsbD k = b.getLsbD (7 - k)) ∧
  (∀ b : Byte, reverseByte (reverseByte b) = b) ∧
  (∀ b : Byte, enc true b = reverseByte b ∧ enc false b = b)

/-- R102: the properties of `Reverse`. -/
def Obligations.CodecProperties : Prop :=
  (∀ b : Byte, reverseByte (reverseByte b) = b) ∧ Function.Bijective reverseByte ∧
  (∀ b : Byte, reverseByte (~~~b) = ~~~reverseByte b) ∧
  (∀ a b : Byte, reverseByte (a ||| b) = reverseByte a ||| reverseByte b) ∧
  (∀ a b : Byte, reverseByte (a &&& b) = reverseByte a &&& reverseByte b) ∧
  (∀ b : Byte, reverseByte (b >>> 1) = reverseByte b <<< 1) ∧
  reverseByte 0x00#8 = 0x00#8 ∧ reverseByte 0xFF#8 = 0xFF#8

/-- R101: REVERSE, its encoding, its illegal words, and what it does: `RESULT` and `STATUS`, and nothing else. -/
def Obligations.ReverseCommandRule : Prop :=
  (∀ (t : Transfer) (b : Byte), decode t = .ok (.reverse b) ↔
    t.c &&& 0xFFFFFF00#32 = 0x90000000#32 ∧ b = t.c.extractLsb' 0 8) ∧
  (∀ t : Transfer, t.c.extractLsb' 28 4 = 0x9#4 → t.c &&& 0x0FFFFF00#32 ≠ 0#32 → ∃ e, decode t = .error e) ∧
  (∀ (b : Byte) (s : State), s.life = .alive →
    ∃ v : Byte, (∀ k, k < 8 → v.getLsbD k = b.getLsbD (7 - k)) ∧
      exec (.reverse b) s = .next { s with ci := s.ci + 1, result := v, status := 0x00#8 })

/-- R29: only REVERSE writes `RESULT` (a reset aside). -/
def Obligations.OnlyReverseWritesResult : Prop :=
  ∀ (i : Instr) (s t : State), (∀ b, i ≠ .reverse b) → exec i s = .next t → t.result = s.result

/-! ### SET_PIXEL, SET_ROW, SET_ROW_BITS -/

/-- R110 and R111: SET_PIXEL, its encoding and illegal words; out of range nothing but `CI` and `STATUS` changes; in range one
bit of one cell is written and the row is marked dirty. The bounds are `8` and `8·VLEN`, as natural numbers. -/
def Obligations.SetPixelRule : Prop :=
  (∀ (t : Transfer) (row : BitVec 8) (col : BitVec 16) (on : Bool), decode t = .ok (.setPixel row col on) ↔
    t.c &&& 0xFE000000#32 = 0x10000000#32 ∧ row = t.c.extractLsb' 16 8 ∧ col = t.c.extractLsb' 0 16 ∧
      on = t.c.getLsbD 24) ∧
  (∀ t : Transfer, t.c.extractLsb' 28 4 = 0x1#4 → t.c &&& 0x0E000000#32 ≠ 0#32 → ∃ e, decode t = .error e) ∧
  (∀ (row : BitVec 8) (col : BitVec 16) (on : Bool) (s : State), s.life = .alive →
    8 ≤ row.toNat ∨ 8 * s.vlen ≤ col.toNat →
    exec (.setPixel row col on) s = .next { s with ci := s.ci + 1, status := 0x00#8 }) ∧
  (∀ (row : BitVec 8) (col : BitVec 16) (on : Bool) (s : State), s.life = .alive →
    row.toNat < 8 → col.toNat < 8 * s.vlen →
    ∃ t, exec (.setPixel row col on) s = .next t ∧
      t = { s with vb := t.vb, ci := s.ci + 1, dirty := s.dirty ||| (0x01#8 <<< row.toNat), status := 0x00#8 } ∧
      ∀ r m, r < 8 → t.readCell r m =
        if r = row.toNat ∧ m = col.toNat / 8 then
          (if on then s.readCell r m ||| (0x01#8 <<< (col.toNat % 8))
           else s.readCell r m &&& ~~~(0x01#8 <<< (col.toNat % 8)))
        else s.readCell r m)

/-- SET_PIXEL in the pixel view: the pixel reads as `on`, and every other pixel of every row as before. -/
def Obligations.SetPixelWritesOnePixel : Prop :=
  ∀ (row : BitVec 8) (col : BitVec 16) (on : Bool) (s : State), s.life = .alive →
    row.toNat < 8 → col.toNat < 8 * s.vlen →
    ∃ t, exec (.setPixel row col on) s = .next t ∧
      ∀ r c, r < 8 → t.pixel r c = if r = row.toNat ∧ c = col.toNat then on else s.pixel r c

/-- R112: SET_ROW, its encoding and illegal words; a no-op for `row ≥ 8`; else every cell of the row below `VLEN` takes the
constant, no other cell changes, and the row is marked dirty. -/
def Obligations.SetRowRule : Prop :=
  (∀ (t : Transfer) (row : BitVec 8) (allOn : Bool), decode t = .ok (.setRow row allOn) ↔
    t.c &&& 0xFE00FFFF#32 = 0x20000000#32 ∧ row = t.c.extractLsb' 16 8 ∧ allOn = t.c.getLsbD 24) ∧
  (∀ t : Transfer, t.c.extractLsb' 28 4 = 0x2#4 → t.c &&& 0x0E00FFFF#32 ≠ 0#32 → ∃ e, decode t = .error e) ∧
  (∀ (row : BitVec 8) (allOn : Bool) (s : State), s.life = .alive → 8 ≤ row.toNat →
    exec (.setRow row allOn) s = .next { s with ci := s.ci + 1, status := 0x00#8 }) ∧
  (∀ (row : BitVec 8) (allOn : Bool) (s : State), s.life = .alive → row.toNat < 8 →
    ∃ t, exec (.setRow row allOn) s = .next t ∧
      t = { s with vb := t.vb, ci := s.ci + 1, dirty := s.dirty ||| (0x01#8 <<< row.toNat), status := 0x00#8 } ∧
      ∀ r m, r < 8 → t.readCell r m =
        if r = row.toNat ∧ m < s.vlen then (if allOn then 0xFF#8 else 0x00#8) else s.readCell r m)

/-- R113: after SET_ROW every pixel of the row reads back the value written, and the row is dirty. -/
def Obligations.RowReadsBackAfterSetRow : Prop :=
  ∀ (row : BitVec 8) (allOn : Bool) (s : State), s.life = .alive → row.toNat < 8 →
    ∃ t, exec (.setRow row allOn) s = .next t ∧ t.isDirty row.toNat = true ∧
      ∀ c, c < 8 * s.vlen → t.pixel row.toNat c = allOn

/-- R114: SET_ROW_BITS, its encoding and illegal words; for `row ≥ 8` no event; else one frame of the operand's bytes for the
physical modules, tail first, no codec whatever `REV` is. Neither the buffer nor `DIRTY` changes. -/
def Obligations.SetRowBitsRule : Prop :=
  (∀ (t : Transfer) (row : BitVec 8) (data : DataWord), decode t = .ok (.setRowBits row data) ↔
    t.c &&& 0xFF00FFFF#32 = 0x30000000#32 ∧ row = t.c.extractLsb' 16 8 ∧ data = t.d) ∧
  (∀ t : Transfer, t.c.extractLsb' 28 4 = 0x3#4 → t.c &&& 0x0F00FFFF#32 ≠ 0#32 → ∃ e, decode t = .error e) ∧
  (∀ (row : BitVec 8) (data : DataWord) (s : State), s.life = .alive → 8 ≤ row.toNat →
    exec (.setRowBits row data) s = .next { s with ci := s.ci + 1, status := 0x00#8 }) ∧
  (∀ (row : BitVec 8) (data : DataWord) (s : State), s.life = .alive → row.toNat < 8 →
    exec (.setRowBits row data) s = .next { s with
      ci := s.ci + 1
      status := 0x00#8
      events := s.events ++ [.sel] ++
        (List.range s.chain).reverse.map
          (fun i => .wr (BitVec.ofNat 8 (row.toNat + 1)) (data.extractLsb' (8 * i) 8)) ++ [.desel] })

/-- After SET_ROW_BITS on a clean row, a FLUSH does not resynchronize it: the modules still hold the host's bytes, while the
buffer is unchanged and the row still clean. -/
def Obligations.FlushDoesNotResyncRawBits : Prop :=
  ∀ (row : BitVec 8) (data : DataWord) (s : State), s.life = .alive → row.toNat < 8 → s.isDirty row.toNat = false →
    ∃ t u, exec (.setRowBits row data) s = .next t ∧ exec .flush t = .next u ∧ u.vb = s.vb ∧
      t.isDirty row.toNat = false ∧
      ∀ k, k < s.chain → wimg u.events k (BitVec.ofNat 8 (row.toNat + 1)) = some (data.extractLsb' (8 * k) 8)

/-- Repeating SET_PIXEL or SET_ROW leaves the same buffer and the row dirty again. -/
def Obligations.RepeatedMutationLeavesTheBuffer : Prop :=
  ∀ (i : Instr) (s t u : State), ((∃ row col on, i = .setPixel row col on) ∨ ∃ row allOn, i = .setRow row allOn) →
    exec i s = .next t → exec i t = .next u →
    u.dirty = t.dirty ∧ ∀ r m, r < 8 → u.readCell r m = t.readCell r m

/-! ### FLUSH -/

/-- R132 and R133: FLUSH, its one word and the illegal ones; it sends the projection of every dirty row, rows
ascending, tail module first, the codec applied if and only if `REV = 1`, and clears the whole dirty set. -/
def Obligations.FlushRule : Prop :=
  (∀ t : Transfer, decode t = .ok .flush ↔ t.c = 0x40000000#32) ∧
  (∀ t : Transfer, t.c.extractLsb' 28 4 = 0x4#4 → t.c ≠ 0x40000000#32 → ∃ e, decode t = .error e) ∧
  (∀ s : State, s.life = .alive →
    exec .flush s = .next { s with
      ci := s.ci + 1
      status := 0x00#8
      dirty := 0x00#8
      events := s.events ++ ((List.range 8).filter fun r => s.dirty.getLsbD r).flatMap fun r =>
        [.sel] ++ (List.range s.chain).reverse.map
          (fun i => .wr (BitVec.ofNat 8 (r + 1)) (if s.rev then reverseByte (s.readCell r i) else s.readCell r i)) ++
          [.desel] })

/-- R135: after FLUSH nothing is dirty; it emits `popcount(DIRTY)` frames of `CHAIN` writes each, rows ascending, each to
address `r + 1`; and it changes no cell. -/
def Obligations.FlushProperties : Prop :=
  ∀ s : State, s.life = .alive →
    ∃ (t : State) (sent : List Nat) (bytes : Nat → List Byte),
      exec .flush s = .next t ∧ t.dirty = 0x00#8 ∧ t.vb = s.vb ∧
      sent.Pairwise (· < ·) ∧ sent.length = s.dirtyCount ∧ (∀ r, r ∈ sent ↔ r < 8 ∧ s.isDirty r = true) ∧
      (∀ r, (bytes r).length = s.chain) ∧
      t.events = s.events ++ (sent.flatMap fun r => frame (BitVec.ofNat 8 (r + 1)) (bytes r)) ∧
      countWrites t.events = countWrites s.events + s.dirtyCount * s.chain

/-- A second FLUSH right after a first emits nothing and changes nothing but `CI`. -/
def Obligations.SecondFlushEmitsNothing : Prop :=
  ∀ s : State, s.life = .alive →
    ∃ t, exec .flush s = .next t ∧ exec .flush t = .next { t with ci := t.ci + 1 }

/-- FLUSH looks at the cells of dirty rows below `CHAIN` and at no other cell: two states that agree there, on `DIRTY` and on
the configuration emit the same events. -/
def Obligations.FlushReadsOnlyDirtyPhysicalCells : Prop :=
  ∀ s s' t t' : State, s.life = .alive → s'.life = .alive → s.dirty = s'.dirty → s.chain = s'.chain → s.rev = s'.rev →
    (∀ r i, r < 8 → s.isDirty r = true → i < s.chain → s.readCell r i = s'.readCell r i) →
    exec .flush s = .next t → exec .flush s' = .next t' →
    ∃ es, t.events = s.events ++ es ∧ t'.events = s'.events ++ es

/-- R26: which commands write `DIRTY`, and to what; no other command writes it. -/
def Obligations.WritersOfDirty : Prop :=
  ∀ (i : Instr) (s t : State), s.life = .alive → exec i s = .next t →
    match i with
    | .setPixel row col _ =>
      (row.toNat < 8 ∧ col.toNat < 8 * s.vlen →
        ∀ r, r < 8 → t.isDirty r = (decide (r = row.toNat) || s.isDirty r)) ∧
      (¬ (row.toNat < 8 ∧ col.toNat < 8 * s.vlen) → t.dirty = s.dirty)
    | .setRow row _ =>
      (row.toNat < 8 → ∀ r, r < 8 → t.isDirty r = (decide (r = row.toNat) || s.isDirty r)) ∧
      (8 ≤ row.toNat → t.dirty = s.dirty)
    | .setVlen n =>
      (s.chain ≤ n.toNat ∧ n.toNat ≤ s.params.vmax → ∀ r, r < 8 → t.isDirty r = true) ∧
      (¬ (s.chain ≤ n.toNat ∧ n.toNat ≤ s.params.vmax) → t.dirty = s.dirty)
    | .flush => ∀ r, r < 8 → t.isDirty r = false
    | .setRowBits _ _ => t.dirty = s.dirty
    | .scroll _ => t.dirty = s.dirty
    | .setIntensity _ => t.dirty = s.dirty
    | .shutdown => t.dirty = s.dirty
    | .reverse _ => t.dirty = s.dirty

/-- R134: FLUSH, every FLUSH, clears the dirty flags, and no other command clears one. -/
def Obligations.OnlyFlushClearsADirtyFlag : Prop :=
  (∀ s t : State, s.life = .alive → exec .flush s = .next t → t.dirty = 0x00#8) ∧
  (∀ (i : Instr) (s t : State), i ≠ .flush → exec i s = .next t → ∀ r, r < 8 → s.isDirty r = true → t.isDirty r = true)

/-! ### SCROLL -/

/-- R150, R151 and R159: SCROLL, its encoding and illegal words; every cell below `VLEN` is shifted right by one, takes
the carry of the next higher module, or at the tail its own bit 0 with `wrap`; no other cell and no flag but `STATUS` changes;
and every row is sent, ascending, with its content after the shift: eight frames, `8·CHAIN` writes. -/
def Obligations.ScrollRule : Prop :=
  (∀ (t : Transfer) (wrap : Bool), decode t = .ok (.scroll wrap) ↔
    t.c &&& 0xFEFFFFFF#32 = 0x50000000#32 ∧ wrap = t.c.getLsbD 24) ∧
  (∀ t : Transfer, t.c.extractLsb' 28 4 = 0x5#4 → t.c &&& 0x0EFFFFFF#32 ≠ 0#32 → ∃ e, decode t = .error e) ∧
  (∀ (wrap : Bool) (s : State), s.life = .alive →
    ∃ t, exec (.scroll wrap) s = .next t ∧
      t = { s with
        vb := t.vb
        ci := s.ci + 1
        status := 0x00#8
        events := s.events ++ (List.range 8).flatMap fun r =>
          [.sel] ++ (List.range s.chain).reverse.map
            (fun i => .wr (BitVec.ofNat 8 (r + 1)) (if s.rev then reverseByte (t.readCell r i) else t.readCell r i)) ++
            [.desel] } ∧
      countWrites t.events = countWrites s.events + 8 * s.chain ∧
      ∀ r i, r < 8 → t.readCell r i =
        if i < s.vlen then
          (s.readCell r i >>> 1) |||
            (if (if i + 1 < s.vlen then (s.readCell r (i + 1)).getLsbD 0 else wrap && (s.readCell r i).getLsbD 0)
              then 0x80#8 else 0x00#8)
        else s.readCell r i)

/-- R152: SCROLL in closed form, in cells and in pixels: every pixel takes the one at the next column, and the last column
takes, with `wrap`, the pixel of the tail module's first column. -/
def Obligations.ScrollClosedForm : Prop :=
  ∀ (wrap : Bool) (s : State), s.life = .alive →
    ∃ t, exec (.scroll wrap) s = .next t ∧
      (∀ r i, r < 8 → i + 1 < s.vlen → t.readCell r i =
        (s.readCell r i >>> 1) ||| ((BitVec.ofBool ((s.readCell r (i + 1)).getLsbD 0)).setWidth 8 <<< 7)) ∧
      (∀ r, r < 8 → 1 ≤ s.vlen → t.readCell r (s.vlen - 1) =
        (s.readCell r (s.vlen - 1) >>> 1) |||
          ((BitVec.ofBool (wrap && (s.readCell r (s.vlen - 1)).getLsbD 0)).setWidth 8 <<< 7)) ∧
      (∀ r c, r < 8 → c + 1 < 8 * s.vlen → t.pixel r c = s.pixel r (c + 1)) ∧
      (∀ r, r < 8 → 1 ≤ s.vlen → t.pixel r (8 * s.vlen - 1) = (wrap && s.pixel r (8 * (s.vlen - 1))))

/-- R156: with `VLEN = 1`, SCROLL with wrap rotates each byte right, eight of them restore every row, and without wrap it
shifts right. -/
def Obligations.SingleModuleScrollRotates : Prop :=
  (∀ s : State, s.life = .alive → s.vlen = 1 →
    ∃ t, exec (.scroll true) s = .next t ∧ ∀ r, r < 8 → t.readCell r 0 =
      (s.readCell r 0 >>> 1) ||| ((BitVec.ofBool ((s.readCell r 0).getLsbD 0)).setWidth 8 <<< 7)) ∧
  (∀ s : State, s.life = .alive → s.vlen = 1 →
    ∃ t, exec (.scroll false) s = .next t ∧ ∀ r, r < 8 → t.readCell r 0 = s.readCell r 0 >>> 1) ∧
  (∀ s : State, s.life = .alive → s.vlen = 1 →
    s.port = List.replicate 8 (.command (encode (.scroll true))) →
    ∃ t, Host.Core.run Sys2Proof.core 8 s = .next t ∧ ∀ r, r < 8 → t.readCell r 0 = s.readCell r 0)

/-- R158: the number of lit pixels of a row before and after a SCROLL, with and without wrap. -/
def Obligations.ScrollPixelCount : Prop :=
  ∀ (wrap : Bool) (s t : State) (r : Nat), s.life = .alive → r < 8 → 1 ≤ s.vlen → exec (.scroll wrap) s = .next t →
    (List.range (8 * s.vlen)).countP (fun c => t.pixel r c) + (s.pixel r 0).toNat =
      (List.range (8 * s.vlen)).countP (fun c => s.pixel r c) + (wrap && s.pixel r (8 * (s.vlen - 1))).toNat

/-! ### SET_VLEN, SET_INTENSITY, SHUTDOWN -/

/-- R170: SET_VLEN, its encoding and illegal words; `E_RANGE` below `CHAIN` and `E_ALLOC` above `VMAX`, both with no
other effect; else the new length, every cell 0x00, every row dirty, and no event. -/
def Obligations.SetVlenRule : Prop :=
  (∀ (t : Transfer) (n : BitVec 16), decode t = .ok (.setVlen n) ↔
    t.c &&& 0xFFFF0000#32 = 0x60000000#32 ∧ n = t.c.extractLsb' 0 16) ∧
  (∀ t : Transfer, t.c.extractLsb' 28 4 = 0x6#4 → t.c &&& 0x0FFF0000#32 ≠ 0#32 → ∃ e, decode t = .error e) ∧
  (∀ (n : BitVec 16) (s : State), s.life = .alive → n.toNat < s.chain →
    exec (.setVlen n) s = .next { s with ci := s.ci + 1, status := 0x02#8 }) ∧
  (∀ (n : BitVec 16) (s : State), s.life = .alive → s.chain ≤ n.toNat → s.params.vmax < n.toNat →
    exec (.setVlen n) s = .next { s with ci := s.ci + 1, status := 0x01#8 }) ∧
  (∀ (n : BitVec 16) (s : State), s.life = .alive → s.chain ≤ n.toNat → n.toNat ≤ s.params.vmax →
    ∃ t, exec (.setVlen n) s = .next t ∧
      t = { s with vb := t.vb, vlen := n.toNat, ci := s.ci + 1, dirty := 0xFF#8, status := 0x00#8 } ∧
      ∀ r m, r < 8 → t.readCell r m = 0x00#8)

/-- After a successful SET_VLEN the next FLUSH blanks the display: it sends every row, all bytes 0x00. -/
def Obligations.FlushAfterSetVlenBlanksTheDisplay : Prop :=
  ∀ (n : BitVec 16) (s : State), s.life = .alive → s.chain ≤ n.toNat → n.toNat ≤ s.params.vmax →
    ∃ t u, exec (.setVlen n) s = .next t ∧ exec .flush t = .next u ∧ t.events = s.events ∧
      u.events = s.events ++ (List.range 8).flatMap fun r =>
        [.sel] ++ List.replicate s.chain (.wr (BitVec.ofNat 8 (r + 1)) 0x00#8) ++ [.desel]

/-- R25: `CHAIN ≤ VLEN ≤ VMAX` at all times (with R6's bounds, which a reset needs), and only SET_VLEN writes `VLEN`,
refusing every value that would break the bounds. -/
def Obligations.VlenBoundsAndItsOneWriter : Prop :=
  (∀ s t : State, s.LengthsOk → step s = .next t → t.LengthsOk) ∧
  (∀ k : Config, k.wellFormed = true → (State.resetWith k).LengthsOk) ∧
  (∀ (i : Instr) (s t : State), (∀ n, i ≠ .setVlen n) → exec i s = .next t → t.vlen = s.vlen) ∧
  (∀ (n : BitVec 16) (s t : State), exec (.setVlen n) s = .next t →
    t.vlen = s.vlen ∨ (t.vlen = n.toNat ∧ s.chain ≤ n.toNat ∧ n.toNat ≤ s.params.vmax))

/-- Unused storage (R22): cells at or beyond `VLEN` hold 0x00 at reset and after SET_VLEN, no other command writes one,
and no command shows them: the host sees the same of what a command leaves, whatever they hold. That the observation port
answers a read of one with the fault `outsideBuffer` is the model's choice (log 10). -/
def Obligations.UnusedStorage : Prop :=
  (∀ k : Config, (State.resetWith k).UnusedZero) ∧
  (∀ (n : BitVec 16) (s t : State), s.UnusedZero → exec (.setVlen n) s = .next t → t.UnusedZero) ∧
  (∀ (i : Instr) (s t : State), (∀ n, i ≠ .setVlen n) → exec i s = .next t →
    ∀ r m, r < 8 → s.vlen ≤ m → t.readCell r m = s.readCell r m) ∧
  (∀ (s : State) (r m : Nat), s.vlen ≤ m → observeCell s r m = .error (.outsideBuffer r m)) ∧
  (∀ (i : Instr) (s t t' : State) (vb : Memory), s.chain ≤ s.vlen →
    (∀ r m, r < 8 → m < s.vlen → State.readCell { s with vb := vb } r m = s.readCell r m) →
    exec i s = .next t → exec i { s with vb := vb } = .next t' → observe t = observe t')

/-- R172: SET_INTENSITY, its encoding and illegal words; one frame that writes the level to `REG_INTENSITY` of every
physical module, no codec, and nothing stored. -/
def Obligations.SetIntensityRule : Prop :=
  (∀ (t : Transfer) (level : BitVec 4), decode t = .ok (.setIntensity level) ↔
    t.c &&& 0xFFFFFFF0#32 = 0x70000000#32 ∧ level = t.c.extractLsb' 0 4) ∧
  (∀ t : Transfer, t.c.extractLsb' 28 4 = 0x7#4 → t.c &&& 0x0FFFFFF0#32 ≠ 0#32 → ∃ e, decode t = .error e) ∧
  (∀ (level : BitVec 4) (s : State), s.life = .alive →
    exec (.setIntensity level) s = .next { s with
      ci := s.ci + 1
      status := 0x00#8
      events := s.events ++ [.sel] ++
        List.replicate s.chain (.wr s.params.regIntensity (BitVec.ofNat 8 level.toNat)) ++ [.desel] })

/-- SHUTDOWN, its one word and the illegal ones; one frame that writes `VAL_SHUTDOWN_ENTER` to `REG_SHUTDOWN` of every
physical module, nothing flushed, the buffer, `VLEN` and `DIRTY` kept, `LIFE` DEAD; every command after it is refused (log 6). -/
def Obligations.ShutdownRule : Prop :=
  (∀ t : Transfer, decode t = .ok .shutdown ↔ t.c = 0x80000000#32) ∧
  (∀ t : Transfer, t.c.extractLsb' 28 4 = 0x8#4 → t.c ≠ 0x80000000#32 → ∃ e, decode t = .error e) ∧
  (∀ s : State, s.life = .alive →
    ∃ t, exec .shutdown s = .next t ∧
      t = { s with
        ci := s.ci + 1
        status := 0x00#8
        life := .dead
        events := s.events ++ [.sel] ++
          List.replicate s.chain (.wr s.params.regShutdown s.params.valShutdownEnter) ++ [.desel] } ∧
      ∀ i, exec i t = .next { t with refusalMark := true })

/-- Reset sets `LIFE` to ALIVE, SHUTDOWN to DEAD, nothing else changes it, and while it is DEAD a command is refused
(log 6). -/
def Obligations.LifeRule : Prop :=
  (∀ k : Config, (State.resetWith k).life = .alive) ∧
  (∀ s t : State, exec .shutdown s = .next t → t.life = .dead) ∧
  (∀ (i : Instr) (s t : State), i ≠ .shutdown → exec i s = .next t → t.life = s.life) ∧
  (∀ s t : State, step s = .next t → s.life = .dead → t.life = .alive → ∃ chain rev rest, s.port = .reset chain rev :: rest) ∧
  (∀ (i : Instr) (s : State), s.life = .dead → exec i s = .next { s with refusalMark := true })

/-! ### Whole-machine rules -/

/-- `CI` is 0 at reset, every accepted command adds 1, an illegal one included, and a refused one (log 6) does not. -/
def Obligations.CommandIndexRule : Prop :=
  (∀ k : Config, (State.resetWith k).ci = 0) ∧
  (∀ (s : State) (t : Transfer) (rest : List HostInput), s.life = .alive → s.port = .command t :: rest →
    ∃ u, step s = .next u ∧ u.ci = s.ci + 1) ∧
  (∀ (s : State) (t : Transfer) (rest : List HostInput), s.life = .dead → s.port = .command t :: rest →
    ∃ u, step s = .next u ∧ u.ci = s.ci)

/-- R27: reset samples `CHAIN` (1..8) and `REV`, and no command writes them (nor the instance's parameters). -/
def Obligations.ConfigurationIsReadOnly : Prop :=
  (∀ (s t : State) (chain : Nat) (rev : Bool), applyReset s chain rev = .next t →
    t.chain = chain ∧ t.rev = rev ∧ 1 ≤ chain ∧ chain ≤ 8 ∧ t.params = s.params) ∧
  (∀ s t : State, (∀ chain rev rest, s.port ≠ .reset chain rev :: rest) → step s = .next t →
    t.chain = s.chain ∧ t.rev = s.rev ∧ t.params = s.params)

/-- Every command appends whole frames to the stream, each with exactly `CHAIN` writes, all to one address. -/
def Obligations.CommandsAppendWholeFrames : Prop :=
  ∀ (i : Instr) (s t : State), exec i s = .next t →
    ∃ fs : List (Byte × List Byte), (∀ f ∈ fs, f.2.length = s.chain) ∧
      t.events = s.events ++ fs.flatMap fun f => [.sel] ++ f.2.map (.wr f.1) ++ [.desel]

/-- The addresses the block writes: row registers 1..8 by FLUSH, SCROLL and SET_ROW_BITS and at reset, the five control
registers at reset, `REG_INTENSITY` by SET_INTENSITY and `REG_SHUTDOWN` by SHUTDOWN. -/
def Obligations.WireAddressMap : Prop :=
  (∀ (i : Instr) (s t : State) (es : List Event) (a d : Byte), exec i s = .next t → t.events = s.events ++ es →
    .wr a d ∈ es →
    (1 ≤ a.toNat ∧ a.toNat ≤ 8 ∧ (i = .flush ∨ (∃ wrap, i = .scroll wrap) ∨ ∃ row data, i = .setRowBits row data)) ∨
    (a = s.params.regIntensity ∧ ∃ level, i = .setIntensity level) ∨
    (a = s.params.regShutdown ∧ i = .shutdown)) ∧
  (∀ (k : Config) (a d : Byte), .wr a d ∈ (State.resetWith k).events →
    (1 ≤ a.toNat ∧ a.toNat ≤ 8) ∨ a = k.params.regDecode ∨ a = k.params.regIntensity ∨ a = k.params.regScanlimit ∨
      a = k.params.regShutdown ∨ a = k.params.regDisplaytest)

/-- The event counts of every command and of reset (the table of the timing section). -/
def Obligations.WritesEmittedPerCommand : Prop :=
  (∀ (i : Instr) (s : State), s.life = .alive →
    ∃ t, exec i s = .next t ∧ countWrites t.events = countWrites s.events +
      match i with
      | .flush => s.dirtyCount * s.chain
      | .scroll _ => 8 * s.chain
      | .setRowBits row _ => if 8 ≤ row.toNat then 0 else s.chain
      | .setIntensity _ => s.chain
      | .shutdown => s.chain
      | .setPixel _ _ _ => 0
      | .setRow _ _ => 0
      | .setVlen _ => 0
      | .reverse _ => 0) ∧
  (∀ k : Config, countWrites (State.resetWith k).events = 13 * k.chain)

/-- The pixel view (R23): column `c` of row `r` is bit `c mod 8` of module `c / 8`'s byte, and the observation port shows it
for `r < 8` and `c < 8·VLEN`; column 0 is bit 0 of module 0, the last column bit 7 of module `VLEN - 1`. That the port
answers any other read with an error is the model's choice (log 10). -/
def Obligations.PixelView : Prop :=
  (∀ (s : State) (r c : Nat), s.pixel r c = (s.readCell r (c / 8)).getLsbD (c % 8)) ∧
  (∀ (s : State) (r c : Nat), r < 8 → c < 8 * s.vlen → observePixel s r c = .ok (s.pixel r c)) ∧
  (∀ (s : State) (r c : Nat), ¬ (r < 8 ∧ c < 8 * s.vlen) → ∃ e, observePixel s r c = .error e) ∧
  (∀ (s : State) (r : Nat), s.pixel r 0 = (s.readCell r 0).getLsbD 0) ∧
  (∀ (s : State) (r : Nat), 1 ≤ s.vlen → s.pixel r (8 * s.vlen - 1) = (s.readCell r (s.vlen - 1)).getLsbD 7)

/-- What the host observes after a command depends on what it observed before and on nothing hidden: two states that look
alike through the port look alike after the same command. -/
def Obligations.ObservationDeterminesTheNext : Prop :=
  ∀ (i : Instr) (s s' t t' : State), s.chain ≤ s.vlen → observe s = observe s' → s.params = s'.params →
    exec i s = .next t → exec i s' = .next t' → observe t = observe t'
end

