-- ==== Sys2Proof/Laws/Memory.lean ====
section
/-!
SUPPORT. The laws of the storage of `VB`: read after write, and the canonical form.
-/

namespace Sys2Proof.Machine

theorem Memory.readAt_eraseAt (mem : Memory) (k k' : Nat) :
    (mem.eraseAt k).readAt k' = if k' = k then Memory.unlisted else mem.readAt k' := by
  induction mem with
  | nil => simp [Memory.eraseAt, Memory.readAt]
  | cons c rest ih =>
    obtain ⟨a, v⟩ := c
    by_cases ha : a = k
    · subst ha
      simp only [Memory.eraseAt, if_pos, Memory.readAt, ih]
      split <;> simp_all [eq_comm]
    · simp only [Memory.eraseAt, if_neg ha, Memory.readAt, ih]
      split <;> simp_all

theorem Memory.readAt_insertAt (mem : Memory) (k : Nat) (v : Byte) (k' : Nat)
    (hk : ∀ c ∈ mem, c.1 ≠ k) :
    (mem.insertAt k v).readAt k' = if k' = k then v else mem.readAt k' := by
  induction mem with
  | nil => simp [Memory.insertAt, Memory.readAt, eq_comm]
  | cons c rest ih =>
    obtain ⟨a, w⟩ := c
    have ha : a ≠ k := hk _ (List.mem_cons_self ..)
    have ih := ih fun c hc => hk c (List.mem_cons_of_mem _ hc)
    simp only [Memory.insertAt]
    split
    · simp [Memory.readAt, eq_comm]
    · simp only [Memory.readAt, ih]
      split <;> simp_all

theorem Memory.mem_eraseAt (mem : Memory) (k : Nat) (c : Host.Cell) :
    c ∈ mem.eraseAt k ↔ c ∈ mem ∧ c.1 ≠ k := by
  induction mem with
  | nil => simp [Memory.eraseAt]
  | cons d rest ih =>
    obtain ⟨a, v⟩ := d
    by_cases ha : a = k
    · simp only [Memory.eraseAt, if_pos ha, ih, List.mem_cons]
      constructor
      · rintro ⟨h, hk⟩; exact ⟨.inr h, hk⟩
      · rintro ⟨rfl | h, hk⟩
        · exact absurd ha hk
        · exact ⟨h, hk⟩
    · simp only [Memory.eraseAt, if_neg ha, List.mem_cons, ih]
      constructor
      · rintro (rfl | ⟨h, hk⟩)
        · exact ⟨.inl rfl, ha⟩
        · exact ⟨.inr h, hk⟩
      · rintro ⟨rfl | h, hk⟩
        · exact .inl rfl
        · exact .inr ⟨h, hk⟩

/-- Read after write, for every storage: the written key reads as the value, every other key as before. -/
theorem Memory.readAt_writeAt (mem : Memory) (k : Nat) (v : Byte) (k' : Nat) :
    (mem.writeAt k v).readAt k' = if k' = k then v else mem.readAt k' := by
  unfold Memory.writeAt
  split
  · subst v; exact mem.readAt_eraseAt k k'
  · rw [Memory.readAt_insertAt _ _ _ _
      (fun c hc => ((mem.mem_eraseAt k c).1 hc).2), Memory.readAt_eraseAt]
    split <;> simp_all

@[simp] theorem Memory.readAt_zeroed (k : Nat) : Memory.zeroed.readAt k = 0x00#8 := rfl

theorem Memory.wf_cons {a : Nat} {v : Byte} {rest : Memory} :
    Memory.wf ((a, v) :: rest) = true ↔ v ≠ Memory.unlisted ∧ (∀ c ∈ rest, a < c.1) ∧ Memory.wf rest = true := by
  simp [Memory.wf, and_assoc]

theorem Memory.wf_eraseAt {mem : Memory} (k : Nat) (h : mem.wf = true) : (mem.eraseAt k).wf = true := by
  induction mem with
  | nil => rfl
  | cons c rest ih =>
    obtain ⟨a, v⟩ := c
    obtain ⟨hv, ha, hr⟩ := Memory.wf_cons.1 h
    simp only [Memory.eraseAt]
    split
    · exact ih hr
    · exact Memory.wf_cons.2 ⟨hv, fun c hc => ha c ((Memory.mem_eraseAt rest k c).1 hc).1, ih hr⟩

theorem Memory.mem_insertAt (mem : Memory) (k : Nat) (v : Byte) (c : Host.Cell) :
    c ∈ mem.insertAt k v ↔ c = (k, v) ∨ c ∈ mem := by
  induction mem with
  | nil => simp [Memory.insertAt]
  | cons d rest ih =>
    simp only [Memory.insertAt]
    split
    · simp
    · simp only [List.mem_cons, ih]; tauto

theorem Memory.wf_insertAt {mem : Memory} (k : Nat) (v : Byte) (h : mem.wf = true) (hv : v ≠ Memory.unlisted)
    (hk : ∀ c ∈ mem, c.1 ≠ k) : (mem.insertAt k v).wf = true := by
  induction mem with
  | nil => simp [Memory.insertAt, Memory.wf, hv]
  | cons c rest ih =>
    obtain ⟨a, w⟩ := c
    obtain ⟨hw, ha, hr⟩ := Memory.wf_cons.1 h
    have hak : a ≠ k := hk _ (List.mem_cons_self ..)
    simp only [Memory.insertAt]
    split
    · rename_i hlt
      refine Memory.wf_cons.2 ⟨hv, fun c hc => ?_, h⟩
      rcases List.mem_cons.1 hc with rfl | hc
      · exact hlt
      · exact hlt.trans (ha c hc)
    · rename_i hlt
      refine Memory.wf_cons.2 ⟨hw, fun c hc => ?_, ih hr fun c hc => hk c (List.mem_cons_of_mem _ hc)⟩
      rcases (Memory.mem_insertAt rest k v c).1 hc with rfl | hc
      · simp only; omega
      · exact ha c hc

/-- A write keeps the canonical form. -/
theorem Memory.wf_writeAt {mem : Memory} (k : Nat) (v : Byte) (h : mem.wf = true) : (mem.writeAt k v).wf = true := by
  unfold Memory.writeAt
  split
  · exact Memory.wf_eraseAt k h
  · rename_i hv
    exact Memory.wf_insertAt k v (Memory.wf_eraseAt k h) hv fun c hc => ((Memory.mem_eraseAt mem k c).1 hc).2

theorem Memory.wf_zeroed : Memory.zeroed.wf = true := rfl

theorem Memory.readAt_of_all_gt {mem : Memory} {k : Nat} (h : ∀ c ∈ mem, k < c.1) : mem.readAt k = Memory.unlisted := by
  induction mem with
  | nil => rfl
  | cons c rest ih =>
    obtain ⟨a, v⟩ := c
    have hlt : k < a := h _ (List.mem_cons_self ..)
    simp only [Memory.readAt]
    rw [if_neg (by omega)]
    exact ih fun c hc => h c (List.mem_cons_of_mem _ hc)

/-- Equal contents are equal data: two storages in canonical form that read alike are the same list. -/
theorem Memory.ext_of_wf {m m' : Memory} (h : m.wf = true) (h' : m'.wf = true) (hr : ∀ k, m.readAt k = m'.readAt k) :
    m = m' := by
  induction m generalizing m' with
  | nil =>
    cases m' with
    | nil => rfl
    | cons c rest =>
      obtain ⟨a, v⟩ := c
      have := hr a
      simp only [Memory.readAt, if_true] at this
      exact absurd this.symm (Memory.wf_cons.1 h').1
  | cons c rest ih =>
    obtain ⟨a, v⟩ := c
    obtain ⟨hv, ha, hw⟩ := Memory.wf_cons.1 h
    cases m' with
    | nil =>
      have := hr a
      simp only [Memory.readAt, if_true] at this
      exact absurd this hv
    | cons c' rest' =>
      obtain ⟨a', v'⟩ := c'
      obtain ⟨hv', ha', hw'⟩ := Memory.wf_cons.1 h'
      have haa : a = a' := by
        rcases Nat.lt_trichotomy a a' with hlt | heq | hlt
        · have := hr a
          rw [Memory.readAt_of_all_gt (mem := (a', v') :: rest') (by
            intro c hc
            rcases List.mem_cons.1 hc with rfl | hc
            · exact hlt
            · exact hlt.trans (ha' c hc))] at this
          simp only [Memory.readAt, if_true] at this
          exact absurd this hv
        · exact heq
        · have := hr a'
          rw [Memory.readAt_of_all_gt (mem := (a, v) :: rest) (by
            intro c hc
            rcases List.mem_cons.1 hc with rfl | hc
            · exact hlt
            · exact hlt.trans (ha c hc))] at this
          simp only [Memory.readAt, if_true] at this
          exact absurd this.symm hv'
      subst haa
      have hvv : v = v' := by have := hr a; simpa [Memory.readAt] using this
      subst hvv
      congr 1
      refine ih hw hw' fun k => ?_
      by_cases hk : k = a
      · subst hk
        rw [Memory.readAt_of_all_gt ha, Memory.readAt_of_all_gt ha']
      · have := hr k
        simpa [Memory.readAt, Ne.symm hk] using this

/-! ### Cells -/

/-- Distinct cells have distinct keys. -/
theorem cellAddr_inj {r r' m m' : Nat} (h : r < 8) (h' : r' < 8) :
    cellAddr r m = cellAddr r' m' ↔ r = r' ∧ m = m' := by
  unfold cellAddr; omega

/-- Every key is some cell's. -/
theorem cellAddr_surj (k : Nat) : cellAddr (k % 8) (k / 8) = k := by
  unfold cellAddr; omega

/-- A write to one cell read back at another. -/
theorem Memory.readAt_writeAt_cell (mem : Memory) (m : Nat) (v : Byte) {r r' : Nat} (m' : Nat) (h : r < 8) (h' : r' < 8) :
    (mem.writeAt (cellAddr r m) v).readAt (cellAddr r' m') =
      if r' = r ∧ m' = m then v else mem.readAt (cellAddr r' m') := by
  simp only [Memory.readAt_writeAt, cellAddr_inj h' h]

/-- `VB[r][m] <- v`, then `VB[r'][m']` (R8). -/
theorem State.readCell_writeCell (s : State) (r m : Nat) (v : Byte) {r' : Nat} (m' : Nat) (h : r < 8) (h' : r' < 8) :
    (s.writeCell r m v).readCell r' m' = if r' = r ∧ m' = m then v else s.readCell r' m' := by
  exact Memory.readAt_writeAt_cell s.vb m v m' h h'

/-- Reading a cell looks at the storage alone. -/
theorem State.readCell_congr {s t : State} (h : t.vb = s.vb) (r m : Nat) : t.readCell r m = s.readCell r m := by
  simp [State.readCell, h]

end Sys2Proof.Machine
end

