-- ==== Sys2Proof/Laws/State.lean ====
section
/-!
SUPPORT. One lemma per field of the state per update, so that no later proof unfolds a record update.
-/

namespace Sys2Proof.Machine

/-! ### setDirty -/

@[simp] theorem State.setDirty_vb (s : State) (r : Nat) : (s.setDirty r).vb = s.vb := rfl
@[simp] theorem State.setDirty_vlen (s : State) (r : Nat) : (s.setDirty r).vlen = s.vlen := rfl
@[simp] theorem State.setDirty_dirty (s : State) (r : Nat) : (s.setDirty r).dirty = s.dirty ||| (0x01#8 <<< r) := rfl
@[simp] theorem State.setDirty_chain (s : State) (r : Nat) : (s.setDirty r).chain = s.chain := rfl
@[simp] theorem State.setDirty_rev (s : State) (r : Nat) : (s.setDirty r).rev = s.rev := rfl
@[simp] theorem State.setDirty_status (s : State) (r : Nat) : (s.setDirty r).status = s.status := rfl
@[simp] theorem State.setDirty_result (s : State) (r : Nat) : (s.setDirty r).result = s.result := rfl
@[simp] theorem State.setDirty_life (s : State) (r : Nat) : (s.setDirty r).life = s.life := rfl
@[simp] theorem State.setDirty_ci (s : State) (r : Nat) : (s.setDirty r).ci = s.ci := rfl
@[simp] theorem State.setDirty_refusalMark (s : State) (r : Nat) : (s.setDirty r).refusalMark = s.refusalMark := rfl
@[simp] theorem State.setDirty_events (s : State) (r : Nat) : (s.setDirty r).events = s.events := rfl
@[simp] theorem State.setDirty_params (s : State) (r : Nat) : (s.setDirty r).params = s.params := rfl
@[simp] theorem State.setDirty_port (s : State) (r : Nat) : (s.setDirty r).port = s.port := rfl

/-! ### clearDirty -/

@[simp] theorem State.clearDirty_vb (s : State) (r : Nat) : (s.clearDirty r).vb = s.vb := rfl
@[simp] theorem State.clearDirty_vlen (s : State) (r : Nat) : (s.clearDirty r).vlen = s.vlen := rfl
@[simp] theorem State.clearDirty_dirty (s : State) (r : Nat) : (s.clearDirty r).dirty = s.dirty &&& ~~~(0x01#8 <<< r) := rfl
@[simp] theorem State.clearDirty_chain (s : State) (r : Nat) : (s.clearDirty r).chain = s.chain := rfl
@[simp] theorem State.clearDirty_rev (s : State) (r : Nat) : (s.clearDirty r).rev = s.rev := rfl
@[simp] theorem State.clearDirty_status (s : State) (r : Nat) : (s.clearDirty r).status = s.status := rfl
@[simp] theorem State.clearDirty_result (s : State) (r : Nat) : (s.clearDirty r).result = s.result := rfl
@[simp] theorem State.clearDirty_life (s : State) (r : Nat) : (s.clearDirty r).life = s.life := rfl
@[simp] theorem State.clearDirty_ci (s : State) (r : Nat) : (s.clearDirty r).ci = s.ci := rfl
@[simp] theorem State.clearDirty_refusalMark (s : State) (r : Nat) : (s.clearDirty r).refusalMark = s.refusalMark := rfl
@[simp] theorem State.clearDirty_events (s : State) (r : Nat) : (s.clearDirty r).events = s.events := rfl
@[simp] theorem State.clearDirty_params (s : State) (r : Nat) : (s.clearDirty r).params = s.params := rfl
@[simp] theorem State.clearDirty_port (s : State) (r : Nat) : (s.clearDirty r).port = s.port := rfl

/-! ### setAllDirty -/

@[simp] theorem State.setAllDirty_vb (s : State) : (s.setAllDirty).vb = s.vb := rfl
@[simp] theorem State.setAllDirty_vlen (s : State) : (s.setAllDirty).vlen = s.vlen := rfl
@[simp] theorem State.setAllDirty_dirty (s : State) : (s.setAllDirty).dirty = 0xFF#8 := rfl
@[simp] theorem State.setAllDirty_chain (s : State) : (s.setAllDirty).chain = s.chain := rfl
@[simp] theorem State.setAllDirty_rev (s : State) : (s.setAllDirty).rev = s.rev := rfl
@[simp] theorem State.setAllDirty_status (s : State) : (s.setAllDirty).status = s.status := rfl
@[simp] theorem State.setAllDirty_result (s : State) : (s.setAllDirty).result = s.result := rfl
@[simp] theorem State.setAllDirty_life (s : State) : (s.setAllDirty).life = s.life := rfl
@[simp] theorem State.setAllDirty_ci (s : State) : (s.setAllDirty).ci = s.ci := rfl
@[simp] theorem State.setAllDirty_refusalMark (s : State) : (s.setAllDirty).refusalMark = s.refusalMark := rfl
@[simp] theorem State.setAllDirty_events (s : State) : (s.setAllDirty).events = s.events := rfl
@[simp] theorem State.setAllDirty_params (s : State) : (s.setAllDirty).params = s.params := rfl
@[simp] theorem State.setAllDirty_port (s : State) : (s.setAllDirty).port = s.port := rfl

/-! ### done -/

@[simp] theorem State.done_vb (s : State) : (s.done).vb = s.vb := rfl
@[simp] theorem State.done_vlen (s : State) : (s.done).vlen = s.vlen := rfl
@[simp] theorem State.done_dirty (s : State) : (s.done).dirty = s.dirty := rfl
@[simp] theorem State.done_chain (s : State) : (s.done).chain = s.chain := rfl
@[simp] theorem State.done_rev (s : State) : (s.done).rev = s.rev := rfl
@[simp] theorem State.done_status (s : State) : (s.done).status = statusOk := rfl
@[simp] theorem State.done_result (s : State) : (s.done).result = s.result := rfl
@[simp] theorem State.done_life (s : State) : (s.done).life = s.life := rfl
@[simp] theorem State.done_ci (s : State) : (s.done).ci = s.ci := rfl
@[simp] theorem State.done_refusalMark (s : State) : (s.done).refusalMark = s.refusalMark := rfl
@[simp] theorem State.done_events (s : State) : (s.done).events = s.events := rfl
@[simp] theorem State.done_params (s : State) : (s.done).params = s.params := rfl
@[simp] theorem State.done_port (s : State) : (s.done).port = s.port := rfl

/-! ### fail -/

@[simp] theorem State.fail_vb (s : State) (code : Byte) : (s.fail code).vb = s.vb := rfl
@[simp] theorem State.fail_vlen (s : State) (code : Byte) : (s.fail code).vlen = s.vlen := rfl
@[simp] theorem State.fail_dirty (s : State) (code : Byte) : (s.fail code).dirty = s.dirty := rfl
@[simp] theorem State.fail_chain (s : State) (code : Byte) : (s.fail code).chain = s.chain := rfl
@[simp] theorem State.fail_rev (s : State) (code : Byte) : (s.fail code).rev = s.rev := rfl
@[simp] theorem State.fail_status (s : State) (code : Byte) : (s.fail code).status = code := rfl
@[simp] theorem State.fail_result (s : State) (code : Byte) : (s.fail code).result = s.result := rfl
@[simp] theorem State.fail_life (s : State) (code : Byte) : (s.fail code).life = s.life := rfl
@[simp] theorem State.fail_ci (s : State) (code : Byte) : (s.fail code).ci = s.ci := rfl
@[simp] theorem State.fail_refusalMark (s : State) (code : Byte) : (s.fail code).refusalMark = s.refusalMark := rfl
@[simp] theorem State.fail_events (s : State) (code : Byte) : (s.fail code).events = s.events := rfl
@[simp] theorem State.fail_params (s : State) (code : Byte) : (s.fail code).params = s.params := rfl
@[simp] theorem State.fail_port (s : State) (code : Byte) : (s.fail code).port = s.port := rfl

/-! ### writeCell -/

@[simp] theorem State.writeCell_vb (s : State) (r m : Nat) (v : Byte) : (s.writeCell r m v).vb = s.vb.writeAt (cellAddr r m) v := rfl
@[simp] theorem State.writeCell_vlen (s : State) (r m : Nat) (v : Byte) : (s.writeCell r m v).vlen = s.vlen := rfl
@[simp] theorem State.writeCell_dirty (s : State) (r m : Nat) (v : Byte) : (s.writeCell r m v).dirty = s.dirty := rfl
@[simp] theorem State.writeCell_chain (s : State) (r m : Nat) (v : Byte) : (s.writeCell r m v).chain = s.chain := rfl
@[simp] theorem State.writeCell_rev (s : State) (r m : Nat) (v : Byte) : (s.writeCell r m v).rev = s.rev := rfl
@[simp] theorem State.writeCell_status (s : State) (r m : Nat) (v : Byte) : (s.writeCell r m v).status = s.status := rfl
@[simp] theorem State.writeCell_result (s : State) (r m : Nat) (v : Byte) : (s.writeCell r m v).result = s.result := rfl
@[simp] theorem State.writeCell_life (s : State) (r m : Nat) (v : Byte) : (s.writeCell r m v).life = s.life := rfl
@[simp] theorem State.writeCell_ci (s : State) (r m : Nat) (v : Byte) : (s.writeCell r m v).ci = s.ci := rfl
@[simp] theorem State.writeCell_refusalMark (s : State) (r m : Nat) (v : Byte) : (s.writeCell r m v).refusalMark = s.refusalMark := rfl
@[simp] theorem State.writeCell_events (s : State) (r m : Nat) (v : Byte) : (s.writeCell r m v).events = s.events := rfl
@[simp] theorem State.writeCell_params (s : State) (r m : Nat) (v : Byte) : (s.writeCell r m v).params = s.params := rfl
@[simp] theorem State.writeCell_port (s : State) (r m : Nat) (v : Byte) : (s.writeCell r m v).port = s.port := rfl

/-! ### emit -/

@[simp] theorem State.emit_vb (s : State) (es : List Event) : (s.emit es).vb = s.vb := rfl
@[simp] theorem State.emit_vlen (s : State) (es : List Event) : (s.emit es).vlen = s.vlen := rfl
@[simp] theorem State.emit_dirty (s : State) (es : List Event) : (s.emit es).dirty = s.dirty := rfl
@[simp] theorem State.emit_chain (s : State) (es : List Event) : (s.emit es).chain = s.chain := rfl
@[simp] theorem State.emit_rev (s : State) (es : List Event) : (s.emit es).rev = s.rev := rfl
@[simp] theorem State.emit_status (s : State) (es : List Event) : (s.emit es).status = s.status := rfl
@[simp] theorem State.emit_result (s : State) (es : List Event) : (s.emit es).result = s.result := rfl
@[simp] theorem State.emit_life (s : State) (es : List Event) : (s.emit es).life = s.life := rfl
@[simp] theorem State.emit_ci (s : State) (es : List Event) : (s.emit es).ci = s.ci := rfl
@[simp] theorem State.emit_refusalMark (s : State) (es : List Event) : (s.emit es).refusalMark = s.refusalMark := rfl
@[simp] theorem State.emit_events (s : State) (es : List Event) : (s.emit es).events = s.events ++ es := rfl
@[simp] theorem State.emit_params (s : State) (es : List Event) : (s.emit es).params = s.params := rfl
@[simp] theorem State.emit_port (s : State) (es : List Event) : (s.emit es).port = s.port := rfl

/-! ### rowWrite -/

@[simp] theorem State.rowWrite_vb (s : State) (r : Nat) (bytes : List Byte) : (s.rowWrite r bytes).vb = s.vb := rfl
@[simp] theorem State.rowWrite_vlen (s : State) (r : Nat) (bytes : List Byte) : (s.rowWrite r bytes).vlen = s.vlen := rfl
@[simp] theorem State.rowWrite_dirty (s : State) (r : Nat) (bytes : List Byte) : (s.rowWrite r bytes).dirty = s.dirty := rfl
@[simp] theorem State.rowWrite_chain (s : State) (r : Nat) (bytes : List Byte) : (s.rowWrite r bytes).chain = s.chain := rfl
@[simp] theorem State.rowWrite_rev (s : State) (r : Nat) (bytes : List Byte) : (s.rowWrite r bytes).rev = s.rev := rfl
@[simp] theorem State.rowWrite_status (s : State) (r : Nat) (bytes : List Byte) : (s.rowWrite r bytes).status = s.status := rfl
@[simp] theorem State.rowWrite_result (s : State) (r : Nat) (bytes : List Byte) : (s.rowWrite r bytes).result = s.result := rfl
@[simp] theorem State.rowWrite_life (s : State) (r : Nat) (bytes : List Byte) : (s.rowWrite r bytes).life = s.life := rfl
@[simp] theorem State.rowWrite_ci (s : State) (r : Nat) (bytes : List Byte) : (s.rowWrite r bytes).ci = s.ci := rfl
@[simp] theorem State.rowWrite_refusalMark (s : State) (r : Nat) (bytes : List Byte) : (s.rowWrite r bytes).refusalMark = s.refusalMark := rfl
@[simp] theorem State.rowWrite_events (s : State) (r : Nat) (bytes : List Byte) : (s.rowWrite r bytes).events = s.events ++ frame (wireAddr r) bytes := rfl
@[simp] theorem State.rowWrite_params (s : State) (r : Nat) (bytes : List Byte) : (s.rowWrite r bytes).params = s.params := rfl
@[simp] theorem State.rowWrite_port (s : State) (r : Nat) (bytes : List Byte) : (s.rowWrite r bytes).port = s.port := rfl

/-! ### transmitRow -/

@[simp] theorem State.transmitRow_vb (s : State) (r : Nat) : (s.transmitRow r).vb = s.vb := rfl
@[simp] theorem State.transmitRow_vlen (s : State) (r : Nat) : (s.transmitRow r).vlen = s.vlen := rfl
@[simp] theorem State.transmitRow_dirty (s : State) (r : Nat) : (s.transmitRow r).dirty = s.dirty := rfl
@[simp] theorem State.transmitRow_chain (s : State) (r : Nat) : (s.transmitRow r).chain = s.chain := rfl
@[simp] theorem State.transmitRow_rev (s : State) (r : Nat) : (s.transmitRow r).rev = s.rev := rfl
@[simp] theorem State.transmitRow_status (s : State) (r : Nat) : (s.transmitRow r).status = s.status := rfl
@[simp] theorem State.transmitRow_result (s : State) (r : Nat) : (s.transmitRow r).result = s.result := rfl
@[simp] theorem State.transmitRow_life (s : State) (r : Nat) : (s.transmitRow r).life = s.life := rfl
@[simp] theorem State.transmitRow_ci (s : State) (r : Nat) : (s.transmitRow r).ci = s.ci := rfl
@[simp] theorem State.transmitRow_refusalMark (s : State) (r : Nat) : (s.transmitRow r).refusalMark = s.refusalMark := rfl
@[simp] theorem State.transmitRow_events (s : State) (r : Nat) : (s.transmitRow r).events = s.events ++ frame (wireAddr r) (s.proj r) := rfl
@[simp] theorem State.transmitRow_params (s : State) (r : Nat) : (s.transmitRow r).params = s.params := rfl
@[simp] theorem State.transmitRow_port (s : State) (r : Nat) : (s.transmitRow r).port = s.port := rfl

/-! ### writeRegister -/

@[simp] theorem State.writeRegister_vb (s : State) (a d : Byte) : (s.writeRegister a d).vb = s.vb := rfl
@[simp] theorem State.writeRegister_vlen (s : State) (a d : Byte) : (s.writeRegister a d).vlen = s.vlen := rfl
@[simp] theorem State.writeRegister_dirty (s : State) (a d : Byte) : (s.writeRegister a d).dirty = s.dirty := rfl
@[simp] theorem State.writeRegister_chain (s : State) (a d : Byte) : (s.writeRegister a d).chain = s.chain := rfl
@[simp] theorem State.writeRegister_rev (s : State) (a d : Byte) : (s.writeRegister a d).rev = s.rev := rfl
@[simp] theorem State.writeRegister_status (s : State) (a d : Byte) : (s.writeRegister a d).status = s.status := rfl
@[simp] theorem State.writeRegister_result (s : State) (a d : Byte) : (s.writeRegister a d).result = s.result := rfl
@[simp] theorem State.writeRegister_life (s : State) (a d : Byte) : (s.writeRegister a d).life = s.life := rfl
@[simp] theorem State.writeRegister_ci (s : State) (a d : Byte) : (s.writeRegister a d).ci = s.ci := rfl
@[simp] theorem State.writeRegister_refusalMark (s : State) (a d : Byte) : (s.writeRegister a d).refusalMark = s.refusalMark := rfl
@[simp] theorem State.writeRegister_events (s : State) (a d : Byte) : (s.writeRegister a d).events = s.events ++ registerFrame s.chain a d := rfl
@[simp] theorem State.writeRegister_params (s : State) (a d : Byte) : (s.writeRegister a d).params = s.params := rfl
@[simp] theorem State.writeRegister_port (s : State) (a d : Byte) : (s.writeRegister a d).port = s.port := rfl

/-! ### refuse -/

@[simp] theorem State.refuse_vb (s : State) : (s.refuse).vb = s.vb := rfl
@[simp] theorem State.refuse_vlen (s : State) : (s.refuse).vlen = s.vlen := rfl
@[simp] theorem State.refuse_dirty (s : State) : (s.refuse).dirty = s.dirty := rfl
@[simp] theorem State.refuse_chain (s : State) : (s.refuse).chain = s.chain := rfl
@[simp] theorem State.refuse_rev (s : State) : (s.refuse).rev = s.rev := rfl
@[simp] theorem State.refuse_status (s : State) : (s.refuse).status = s.status := rfl
@[simp] theorem State.refuse_result (s : State) : (s.refuse).result = s.result := rfl
@[simp] theorem State.refuse_life (s : State) : (s.refuse).life = s.life := rfl
@[simp] theorem State.refuse_ci (s : State) : (s.refuse).ci = s.ci := rfl
@[simp] theorem State.refuse_refusalMark (s : State) : (s.refuse).refusalMark = true := rfl
@[simp] theorem State.refuse_events (s : State) : (s.refuse).events = s.events := rfl
@[simp] theorem State.refuse_params (s : State) : (s.refuse).params = s.params := rfl
@[simp] theorem State.refuse_port (s : State) : (s.refuse).port = s.port := rfl

/-! ### advance -/

@[simp] theorem State.advance_vb (s : State) : (s.advance).vb = s.vb := rfl
@[simp] theorem State.advance_vlen (s : State) : (s.advance).vlen = s.vlen := rfl
@[simp] theorem State.advance_dirty (s : State) : (s.advance).dirty = s.dirty := rfl
@[simp] theorem State.advance_chain (s : State) : (s.advance).chain = s.chain := rfl
@[simp] theorem State.advance_rev (s : State) : (s.advance).rev = s.rev := rfl
@[simp] theorem State.advance_status (s : State) : (s.advance).status = s.status := rfl
@[simp] theorem State.advance_result (s : State) : (s.advance).result = s.result := rfl
@[simp] theorem State.advance_life (s : State) : (s.advance).life = s.life := rfl
@[simp] theorem State.advance_ci (s : State) : (s.advance).ci = s.ci + 1 := rfl
@[simp] theorem State.advance_refusalMark (s : State) : (s.advance).refusalMark = s.refusalMark := rfl
@[simp] theorem State.advance_events (s : State) : (s.advance).events = s.events := rfl
@[simp] theorem State.advance_params (s : State) : (s.advance).params = s.params := rfl
@[simp] theorem State.advance_port (s : State) : (s.advance).port = s.port := rfl

/-! ### resetTo -/

@[simp] theorem State.resetTo_vb (s : State) (chain : Nat) (rev : Bool) : (s.resetTo chain rev).vb = Memory.zeroed := rfl
@[simp] theorem State.resetTo_vlen (s : State) (chain : Nat) (rev : Bool) : (s.resetTo chain rev).vlen = chain := rfl
@[simp] theorem State.resetTo_dirty (s : State) (chain : Nat) (rev : Bool) : (s.resetTo chain rev).dirty = 0x00#8 := rfl
@[simp] theorem State.resetTo_chain (s : State) (chain : Nat) (rev : Bool) : (s.resetTo chain rev).chain = chain := rfl
@[simp] theorem State.resetTo_rev (s : State) (chain : Nat) (rev : Bool) : (s.resetTo chain rev).rev = rev := rfl
@[simp] theorem State.resetTo_status (s : State) (chain : Nat) (rev : Bool) : (s.resetTo chain rev).status = 0x00#8 := rfl
@[simp] theorem State.resetTo_result (s : State) (chain : Nat) (rev : Bool) : (s.resetTo chain rev).result = 0x00#8 := rfl
@[simp] theorem State.resetTo_life (s : State) (chain : Nat) (rev : Bool) : (s.resetTo chain rev).life = .alive := rfl
@[simp] theorem State.resetTo_ci (s : State) (chain : Nat) (rev : Bool) : (s.resetTo chain rev).ci = 0 := rfl
@[simp] theorem State.resetTo_refusalMark (s : State) (chain : Nat) (rev : Bool) : (s.resetTo chain rev).refusalMark = false := rfl
@[simp] theorem State.resetTo_events (s : State) (chain : Nat) (rev : Bool) : (s.resetTo chain rev).events = s.events ++ initFrames chain s.params := rfl
@[simp] theorem State.resetTo_params (s : State) (chain : Nat) (rev : Bool) : (s.resetTo chain rev).params = s.params := rfl
@[simp] theorem State.resetTo_port (s : State) (chain : Nat) (rev : Bool) : (s.resetTo chain rev).port = s.port := rfl

/-! ### resetWith -/

@[simp] theorem State.resetWith_vb (k : Config) : (State.resetWith k).vb = Memory.zeroed := rfl
@[simp] theorem State.resetWith_vlen (k : Config) : (State.resetWith k).vlen = k.chain := rfl
@[simp] theorem State.resetWith_dirty (k : Config) : (State.resetWith k).dirty = 0x00#8 := rfl
@[simp] theorem State.resetWith_chain (k : Config) : (State.resetWith k).chain = k.chain := rfl
@[simp] theorem State.resetWith_rev (k : Config) : (State.resetWith k).rev = k.rev := rfl
@[simp] theorem State.resetWith_status (k : Config) : (State.resetWith k).status = 0x00#8 := rfl
@[simp] theorem State.resetWith_result (k : Config) : (State.resetWith k).result = 0x00#8 := rfl
@[simp] theorem State.resetWith_life (k : Config) : (State.resetWith k).life = .alive := rfl
@[simp] theorem State.resetWith_ci (k : Config) : (State.resetWith k).ci = 0 := rfl
@[simp] theorem State.resetWith_refusalMark (k : Config) : (State.resetWith k).refusalMark = false := rfl
@[simp] theorem State.resetWith_events (k : Config) : (State.resetWith k).events = initFrames k.chain k.params := rfl
@[simp] theorem State.resetWith_params (k : Config) : (State.resetWith k).params = k.params := rfl
@[simp] theorem State.resetWith_port (k : Config) : (State.resetWith k).port = [] := rfl

end Sys2Proof.Machine
end

