-- ==== Sys2Proof/Laws/Ops.lean ====
section
/-!
SUPPORT. What the shared operations do, once: the bits of the codec, flags and fields, accepting a command, frames and
the wire image, and the cases of a step.
-/

namespace Sys2Proof.Machine

/-! ### Bits -/

/-- R100: bit `k` of `Reverse(b)` is bit `7 - k` of `b`. -/
theorem reverseByte_getLsbD (b : Byte) {k : Nat} (h : k < 8) : (reverseByte b).getLsbD k = b.getLsbD (7 - k) := by
  revert b
  interval_cases k <;> decide

theorem reverseByte_zero : reverseByte 0x00#8 = 0x00#8 := by decide

@[simp] theorem enc_false (b : Byte) : enc false b = b := rfl

@[simp] theorem enc_true (b : Byte) : enc true b = reverseByte b := rfl

@[simp] theorem enc_zero (rev : Bool) : enc rev 0x00#8 = 0x00#8 := by cases rev <;> decide

/-- R110: the bit written takes the value, the others keep theirs. -/
theorem withBit_getLsbD (b : Byte) {k : Nat} (on : Bool) {j : Nat} (hk : k < 8) (hj : j < 8) :
    (withBit b k on).getLsbD j = if j = k then on else b.getLsbD j := by
  revert b on
  interval_cases k <;> interval_cases j <;> decide

theorem fillByte_getLsbD (allOn : Bool) {j : Nat} (hj : j < 8) : (fillByte allOn).getLsbD j = allOn := by
  revert allOn
  interval_cases j <;> decide

/-! ### Flags -/

theorem State.isDirty_setDirty (s : State) {r r' : Nat} (h : r < 8) (h' : r' < 8) :
    (s.setDirty r).isDirty r' = (decide (r' = r) || s.isDirty r') := by
  simp only [State.isDirty, State.setDirty]
  generalize s.dirty = d
  revert d
  interval_cases r <;> interval_cases r' <;> decide

theorem State.isDirty_clearDirty (s : State) {r r' : Nat} (h : r < 8) (h' : r' < 8) :
    (s.clearDirty r).isDirty r' = (!decide (r' = r) && s.isDirty r') := by
  simp only [State.isDirty, State.clearDirty]
  generalize s.dirty = d
  revert d
  interval_cases r <;> interval_cases r' <;> decide

theorem mem_rows {r : Nat} : r ∈ rows ↔ r < 8 := by
  simp only [rows, List.mem_cons, List.not_mem_nil, or_false]; omega

/-! ### Accepting a command -/

@[simp] theorem accept_alive {s : State} (h : s.life = .alive) (body : State → State) :
    accept s body = .next (body s.advance) := by
  unfold accept; rw [h]

@[simp] theorem accept_dead {s : State} (h : s.life = .dead) (body : State → State) : accept s body = .next s.refuse := by
  unfold accept; rw [h]

/-- All that accepting a command can do: it is refused (R202), or its body runs after `CI` advanced (R31). -/
theorem accept_cases {s t : State} {body : State → State} (h : accept s body = .next t) :
    (s.life = .dead ∧ t = s.refuse) ∨ (s.life = .alive ∧ t = body s.advance) := by
  unfold accept at h
  split at h
  · exact .inl ⟨‹_›, (Host.Outcome.next.inj h).symm⟩
  · exact .inr ⟨‹_›, (Host.Outcome.next.inj h).symm⟩

/-- Accepting never faults and never refuses (R203). -/
theorem accept_next (s : State) (body : State → State) : ∃ t, accept s body = .next t := by
  unfold accept; split <;> exact ⟨_, rfl⟩

/-! ### Reset -/

/-- All that reset can do: it constructs the block in a well-formed configuration, and has no meaning in another (R6). -/
theorem applyReset_cases (s : State) (chain : Nat) (rev : Bool) :
    (Config.wellFormed ⟨chain, rev, s.params⟩ = true ∧ applyReset s chain rev = .next (s.resetTo chain rev)) ∨
      (Config.wellFormed ⟨chain, rev, s.params⟩ = false ∧
        applyReset s chain rev = .refused (.invalidConfiguration chain)) := by
  unfold applyReset
  cases h : Config.wellFormed ⟨chain, rev, s.params⟩
  · exact .inr ⟨rfl, by simp⟩
  · exact .inl ⟨rfl, by simp⟩

theorem wellFormed_iff (k : Config) :
    k.wellFormed = true ↔ 1 ≤ k.chain ∧ k.chain ≤ 8 ∧ 8 ≤ k.params.vmax ∧ k.params.vmax ≤ 8192 ∧
      k.params.initIntensity.toNat ≤ 15 := by
  simp [Config.wellFormed, Params.wellFormed, and_assoc]

/-! ### Frames and the wire image -/

@[simp] theorem State.proj_length (s : State) (r : Nat) : (s.proj r).length = s.chain := by simp [State.proj]

theorem State.proj_getElem? (s : State) (r : Nat) {k : Nat} (h : k < s.chain) :
    (s.proj r)[k]? = some (enc s.rev (s.readCell r k)) := by
  simp [State.proj, h]

/-- The projection looks at the storage, `CHAIN` and `REV` alone. -/
theorem State.proj_congr {s t : State} (hv : t.vb = s.vb) (hc : t.chain = s.chain) (hr : t.rev = s.rev) (r : Nat) :
    t.proj r = s.proj r := by
  simp [State.proj, State.readCell, hv, hc, hr]

theorem countWrites_append (es fs : List Event) : countWrites (es ++ fs) = countWrites es + countWrites fs := by
  simp [countWrites]

theorem countWrites_frame (a : Byte) (bytes : List Byte) : countWrites (frame a bytes) = bytes.length := by
  simp only [frame, countWrites, List.countP_cons, List.countP_append, List.countP_map, List.countP_nil]
  simp [Function.comp_def]

theorem Latch.see_writes (k : Nat) (a a' : Byte) (ds : List Byte) (l : Latch) :
    (ds.map (Event.wr a')).foldl (Latch.see k a) l = ⟨(ds.reverse.map fun d => (a', d)) ++ l.opened, l.last⟩ := by
  induction ds generalizing l with
  | nil => rfl
  | cons d ds ih => simp [ih, Latch.see]

/-- R62: a completed frame delivers `bytes[k]` to module `k` at its address and nothing elsewhere. -/
theorem wimg_frame (es : List Event) (a' : Byte) (bytes : List Byte) (k : Nat) (a : Byte) :
    wimg (es ++ frame a' bytes) k a =
      if a' = a ∧ k < bytes.length then bytes[k]? else wimg es k a := by
  simp only [wimg, List.foldl_append, frame, List.foldl_cons, List.foldl_nil]
  generalize es.foldl (Latch.see k a) ⟨[], none⟩ = l
  rw [show Latch.see k a l .sel = ⟨[], l.last⟩ from rfl, Latch.see_writes]
  simp only [List.reverse_reverse, List.append_nil, Latch.see, List.getElem?_map]
  by_cases hk : k < bytes.length
  · simp only [List.getElem?_eq_getElem hk, Option.map_some, hk, and_true]
  · simp [hk]

theorem wireAddr_inj {r r' : Nat} (h : r < 8) (h' : r' < 8) : wireAddr r = wireAddr r' ↔ r = r' := by
  constructor
  · intro he
    have := congrArg BitVec.toNat he
    simp only [wireAddr, BitVec.toNat_ofNat] at this
    omega
  · rintro rfl; rfl

/-! ### A step -/

/-- All that a step can do, by what the host presents. -/
theorem step_cases (s : State) :
    (s.port = [] ∧ step s = .next s) ∨
    (∃ t rest i, s.port = .command t :: rest ∧ decode t = .ok i ∧ step s = exec i { s with port := rest }) ∨
    (∃ t rest e, s.port = .command t :: rest ∧ decode t = .error e ∧ step s = execIllegal { s with port := rest }) ∨
    (∃ chain rev rest, s.port = .reset chain rev :: rest ∧ step s = applyReset { s with port := rest } chain rev) := by
  rcases hp : s.port with _ | ⟨⟨t⟩ | ⟨chain, rev⟩, rest⟩
  · exact .inl ⟨rfl, by simp [step, hp]⟩
  · rcases hd : decode t with e | i
    · exact .inr (.inr (.inl ⟨t, rest, e, rfl, hd, by simp [step, hp, hd]⟩))
    · exact .inr (.inl ⟨t, rest, i, rfl, hd, by simp [step, hp, hd]⟩)
  · exact .inr (.inr (.inr ⟨chain, rev, rest, rfl, by simp [step, hp]⟩))

end Sys2Proof.Machine
end

