-- ==== Sys2Proof/Tests/Slice0.lean ====
section
/-!
SUPPORT. Tests: the checks of WellFormed, words written out from 30_encoding.md, vectors of 95_test_vectors.md (their names
there are cited), and for every statement with hypotheses a concrete state and operands that meet them.
-/

namespace Sys2Proof.Tests

open Sys2Proof.Machine

/-- Parameters for the tests: any that R6 admits. -/
def testParams : Params where
  vmax := 64
  regDecode := 0x09#8
  regIntensity := 0x0A#8
  regScanlimit := 0x0B#8
  regShutdown := 0x0C#8
  regDisplaytest := 0x0F#8
  valDecodeNone := 0x00#8
  initIntensity := 0x07#8
  valScanlimitAll := 0x07#8
  valShutdownExit := 0x01#8
  valShutdownEnter := 0x00#8
  valDisplaytestOff := 0x00#8

/-- A configuration with the test's parameters. -/
def testConfig (chain : Nat) (rev : Bool) : Config := ⟨chain, rev, testParams⟩

/-- The reset state of a configuration with another buffer, virtual length and dirty set, and an empty stream. -/
def testState (chain vlen : Nat) (rev : Bool) (vb : Memory) (dirty : BitVec 8) : State :=
  { State.resetWith (testConfig chain rev) with vb := vb, vlen := vlen, dirty := dirty, events := [] }

/-- The same, after SHUTDOWN. -/
def deadState : State := { testState 1 1 false [] 0#8 with life := .dead }

/-- A row as cells: module `m` of row `r` is key `8m + r`. -/
def testRow (r : Nat) (bytes : List Byte) : Memory :=
  (bytes.zipIdx.filter fun b => decide (b.1 ≠ 0#8)).map fun b => (8 * b.2 + r, b.1)

/-- The next state, if the outcome is one. -/
def nextOf : StepOutcome → Option State
  | .next s => some s
  | .fault _ => none
  | .refused _ => none

/-- A frame `F(a: d_0 d_1 …)` of 95_test_vectors.md: bytes in wire order. -/
def wireFrame (a : Byte) (ds : List Byte) : List Event := [.sel] ++ ds.map (.wr a) ++ [.desel]

/-! ### WellFormed: each check refuses an ill-formed term -/

theorem test_config_well_formed : (testConfig 8 true).wellFormed = true := by decide
theorem test_config_refuses_chain_0 : (testConfig 0 false).wellFormed = false := by decide
theorem test_config_refuses_chain_9 : (testConfig 9 false).wellFormed = false := by decide
theorem test_params_refuses_small_vmax : Params.wellFormed { testParams with vmax := 7 } = false := by decide
theorem test_params_refuses_large_vmax : Params.wellFormed { testParams with vmax := 8193 } = false := by decide
theorem test_params_refuses_intensity_16 :
    Params.wellFormed { testParams with initIntensity := 16#8 } = false := by decide
theorem test_controls_apart : testParams.controlsApart = true := by decide
theorem test_controls_apart_refuses_a_row_register :
    Params.controlsApart { testParams with regShutdown := 8#8 } = false := by decide
theorem test_asm_refuses_wide_operands :
    [Asm.setpix 256 0 0, .setpix 0 65536 0, .setpix 0 0 2, .setrow 256 0, .setrow 0 2, .rowbits 256 [],
      .rowbits 0 [0, 0, 0, 0, 0, 0, 0, 0, 0], .rowbits 0 [256], .scroll 2, .setvlen 65536, .intens 16, .rev 256,
      .word 4294967296].all (fun a => !a.wellFormed) = true := by decide

/-! ### Words of 30_encoding.md R81 and 95_test_vectors.md 2.9 -/

theorem test_decode_setpixel : decodeTableWord 32 0x10030011 = some (.setPixel 3#8 17#16 false) := by decide
theorem test_decode_setrow : decodeTableWord 32 0x21020000 = some (.setRow 2#8 true) := by decide
theorem test_decode_setrowbits :
    decodeTableWord 96 (0x0000000000000081 * 2 ^ 32 + 0x30050000) = some (.setRowBits 5#8 0x81#64) := by decide
theorem test_decode_flush : decodeTableWord 32 0x40000000 = some .flush := by decide
theorem test_decode_scroll : decodeTableWord 32 0x51000000 = some (.scroll true) := by decide
theorem test_decode_setvlen : decodeTableWord 32 0x60000010 = some (.setVlen 16#16) := by decide
theorem test_decode_setintensity : decodeTableWord 32 0x7000000F = some (.setIntensity 15#4) := by decide
theorem test_decode_shutdown : decodeTableWord 32 0x80000000 = some .shutdown := by decide
theorem test_decode_reverse : decodeTableWord 32 0x900000B0 = some (.reverse 0xB0#8) := by decide
theorem test_decode_illegal_words :
    [0x00000000, 0xA0000000, 0xF1234567, 0x40000001, 0x20018000, 0x7FFFFFFF, 0x12000000, 0x31000000, 0x50800000,
      0x60010002, 0x70000010, 0x80000001, 0x90000100].all (fun w => (decodeTableWord 32 w).isNone) = true := by decide
theorem test_decode_reasons :
    decode ⟨0xA0000000#32, 0⟩ = .error (.reservedOpcode 0xA#4) ∧
      decode ⟨0x40000001#32, 0⟩ = .error (.mustBeZeroBitSet 0x4#4) := by decide
theorem test_fetch_word_runs :
    (nextOf (step (State.reset.withFetchWord 32 0x900000B0))).map (fun s => (s.result, s.ci)) =
      some (0x0D#8, 1) := by decide

/-! ### The assembler (R79, R80) -/

theorem test_assemble_program :
    assembleProgram "SETVLEN 2 ; the canvas\n\nPIXON 3, 8\nROWBITS 2, [0xAA, 0x55]\n.word 0xA0000000" =
      some [⟨0x60000002#32, 0⟩, ⟨0x11030008#32, 0⟩, ⟨0x30020000#32, 0x55AA#64⟩, ⟨0xA0000000#32, 0⟩] := by decide
theorem test_assemble_error : assembleProgram "SETPIX 0, 65536, 1" = none := by decide

/-! ### Vectors of 95_test_vectors.md -/

/-- X4. -/
theorem test_reverse : (nextOf (exec (.reverse 0xB0#8) (testState 1 1 true [] 0#8))).map (·.result) = some 0x0D#8 := by
  decide
/-- P2. -/
theorem test_setpixel :
    (nextOf (exec (.setPixel 0#8 15#16 true) (testState 2 2 false (testRow 0 [0x01#8, 0x00#8]) 1#8))).map
      (fun s => (s.vb, s.dirty)) = some (testRow 0 [0x01#8, 0x80#8], 0x01#8) := by decide
/-- P7. -/
theorem test_setpixel_out_of_range : (nextOf (exec (.setPixel 0#8 16#16 true) (testState 2 2 false [] 0#8))).map
    (fun s => (s.vb, s.dirty, s.status)) = some ([], 0x00#8, 0x00#8) := by decide
/-- R1. -/
theorem test_setrow : (nextOf (exec (.setRow 1#8 true) (testState 1 3 false [] 0#8))).map
    (fun s => (s.vb, s.dirty)) = some (testRow 1 [0xFF#8, 0xFF#8, 0xFF#8], 0x02#8) := by decide
/-- R2. -/
theorem test_setrow_off :
    (nextOf (exec (.setRow 1#8 false) (testState 1 3 false (testRow 1 [0xFF#8, 0xFF#8, 0xFF#8]) 0#8))).map
      (fun s => (s.vb, s.dirty)) = some ([], 0x02#8) := by decide
/-- B2 and B3. -/
theorem test_setrowbits :
    (nextOf (exec (.setRowBits 4#8 0xFFFFFFFFFF030201#64) (testState 3 3 true [] 0#8))).map (·.events) =
      some (wireFrame 5#8 [0x03#8, 0x02#8, 0x01#8]) := by decide
/-- B4. -/
theorem test_setrowbits_out_of_range :
    (nextOf (exec (.setRowBits 8#8 0x030201#64) (testState 3 3 false [] 0#8))).map (·.events) = some [] := by decide
/-- FL3. -/
theorem test_flush_reversed :
    (nextOf (exec .flush (testState 3 3 true (testRow 1 [0x01#8, 0x02#8, 0x03#8]) 2#8))).map (fun s => (s.events, s.dirty)) =
      some (wireFrame 2#8 [0xC0#8, 0x40#8, 0x80#8], 0x00#8) := by decide
/-- FL5. -/
theorem test_flush_ascending :
    (nextOf (exec .flush (testState 1 1 false [(0, 0x0A#8), (7, 0x0B#8)] 0x81#8))).map (·.events) =
      some (wireFrame 1#8 [0x0A#8] ++ wireFrame 8#8 [0x0B#8]) := by decide
/-- S12. -/
theorem test_scroll_wrap : (nextOf (exec (.scroll true) (testState 1 2 false (testRow 0 [0x80#8, 0x01#8]) 5#8))).map
    (fun s => (s.vb, s.dirty)) = some (testRow 0 [0xC0#8, 0x80#8], 5#8) := by decide +kernel
/-- S13. -/
theorem test_scroll_sends : (nextOf (exec (.scroll false) (testState 2 2 true (testRow 0 [0x01#8, 0x02#8]) 0#8))).map
    (fun s => (s.vb, s.events.take 4)) = some (testRow 0 [0x00#8, 0x01#8], wireFrame 1#8 [0x80#8, 0x00#8]) := by
  decide +kernel
/-- V2. -/
theorem test_setvlen : (nextOf (exec (.setVlen 64#16) (testState 2 2 false (testRow 0 [0x01#8]) 0#8))).map
    (fun s => (s.vlen, s.vb, s.dirty, s.status)) = some (64, [], 0xFF#8, 0x00#8) := by decide
/-- V3, V5. -/
theorem test_setvlen_errors : [65#16, 1#16].map (fun n =>
    (nextOf (exec (.setVlen n) (testState 2 2 false (testRow 0 [0x01#8]) 0#8))).map
      (fun s => (s.vlen, s.vb, s.dirty, s.status))) =
    [some (2, testRow 0 [0x01#8], 0x00#8, 0x01#8), some (2, testRow 0 [0x01#8], 0x00#8, 0x02#8)] := by decide
/-- I3. -/
theorem test_setintensity : (nextOf (exec (.setIntensity 1#4) (testState 3 3 true [] 0#8))).map (·.events) =
    some (wireFrame 0x0A#8 [0x01#8, 0x01#8, 0x01#8]) := by decide
/-- T1. -/
theorem test_shutdown : (nextOf (exec .shutdown (testState 3 3 false [] 0#8))).map (fun s => (s.events, s.life, s.status)) =
    some (wireFrame 0x0C#8 [0x00#8, 0x00#8, 0x00#8], .dead, 0x00#8) := by decide
/-- T2. -/
theorem test_refused_after_shutdown : (nextOf (exec (.reverse 0x01#8) deadState)).map
    (fun s => (s.refusalMark, s.ci, s.result, s.events)) = some (true, 0, 0x00#8, []) := by decide
/-- T3. -/
theorem test_illegal_word : (nextOf (step { testState 1 1 false [] 0#8 with port := [.command ⟨0x80000001#32, 0⟩] })).map
    (fun s => (s.status, s.life, s.ci, s.port)) = some (0x03#8, .alive, 1, []) := by decide
/-- Section 2.10, its first and its tenth frame, and the count of writes. -/
theorem test_reset_frames : (State.resetWith (testConfig 2 false)).events.take 4 = wireFrame 1#8 [0x00#8, 0x00#8] ∧
    ((State.resetWith (testConfig 2 false)).events.drop 36).take 4 = wireFrame 0x0A#8 [0x07#8, 0x07#8] ∧
    countWrites (State.resetWith (testConfig 2 false)).events = 26 := by decide
/-- Program 3, the hazard: the wire image after `ROWBITS 2, [0xAA, 0x55]`. -/
theorem test_wire_image : (nextOf (exec (.setRowBits 2#8 0x55AA#64) (testState 2 2 false [] 0#8))).map
    (fun s => (wimg s.events 0 3#8, wimg s.events 1 3#8, wimg s.events 2 3#8)) =
      some (some 0xAA#8, some 0x55#8, none) := by decide
theorem test_reset_by_the_host :
    (nextOf (step { deadState with refusalMark := true, port := [.reset 2 true] })).map
      (fun s => (s.life, s.refusalMark, s.chain, s.rev)) = some (.alive, false, 2, true) := by decide
theorem test_observation_port : observeCell (testState 1 2 false (testRow 3 [0x00#8, 0x01#8]) 0#8) 3 1 = .ok 0x01#8 ∧
    observeCell (testState 1 2 false [] 0#8) 3 2 = .error (.outsideBuffer 3 2) ∧
    observePixel (testState 1 2 false (testRow 3 [0x00#8, 0x01#8]) 0#8) 3 8 = .ok true := by decide
theorem test_canonical_form : Memory.wf (testRow 3 [0x00#8, 0x01#8, 0x02#8]) = true ∧
    Memory.wf [(3, 0x00#8)] = false ∧ Memory.wf [(9, 0x01#8), (3, 0x01#8)] = false := by decide

/-! ### Witnesses: the hypotheses of each statement, met together, clause by clause at the boundaries -/

/-- A canonical buffer and a dirty set with `CHAIN = 2`, `VLEN = 3`: the state most witnesses use. -/
def busy : State := testState 2 3 true (testRow 1 [0x01#8, 0x02#8, 0x83#8]) 0x02#8

theorem witness_encode_of_decode : decode ⟨0x30FF0000#32, 0x81#64⟩ = .ok (.setRowBits 0xFF#8 0x81#64) := by decide
theorem witness_at_most_one_row : Opcode.setPixel.selects 0x11FFFFFF#32 = true := by decide
theorem witness_data_operand : decode ⟨0x40000000#32, 0#64⟩ = .ok .flush ∧ busy.chain = 2 ∧
    (∀ k, k < 8 * busy.chain → (0x0201#64).getLsbD k = (0xFF0201#64).getLsbD k) := by decide
theorem witness_illegal_word :
    let s := { busy with port := [.command ⟨0xA0000000#32, 0⟩] }
    s.life = .alive ∧ s.port = [.command ⟨0xA0000000#32, 0⟩] ∧ 0xA#4 ≤ (0xA0000000#32).extractLsb' 28 4 ∧
      (0x9FFFFFFF#32).extractLsb' 28 4 = Opcode.reverse.code ∧ 0x9FFFFFFF#32 &&& Opcode.reverse.mustBeZero ≠ 0#32 := by
  decide
/-- The bounds of every field, from below and from above. -/
theorem witness_assembly_lines : (255 < 256 ∧ 65535 < 65536 ∧ 1 < 2 ∧ 15 < 16 ∧ 4294967295 < 2 ^ 32) ∧
    (256 ≤ 256 ∧ 65536 ≤ 65536 ∧ 2 ≤ 2 ∧ 16 ≤ 16 ∧ 2 ^ 32 ≤ 4294967296) := by decide
/-- Lists of no byte, of three and of eight, and the errors: nine bytes, and one byte too wide (log 13). -/
theorem witness_assembly_lists :
    ([[], [1, 2, 255], [1, 2, 3, 4, 5, 6, 7, 255]].all fun bs =>
      decide (bs.length ≤ 8 ∧ ∀ b ∈ bs, b < 256) && (assembleLine (.rowbits 255 bs)).isSome) = true ∧
    8 < [1, 2, 3, 4, 5, 6, 7, 8, 9].length ∧ assembleLine (.rowbits 255 [1, 2, 3, 4, 5, 6, 7, 8, 9]) = none ∧
    (∃ b ∈ [1, 256], 256 ≤ b) ∧ assembleLine (.rowbits 255 [1, 256]) = none := by decide
/-- The gap and the commas at the ends of a list, all errors (log 13). -/
theorem test_rowbits_gaps :
    ["ROWBITS 2, [1, , 3]", "ROWBITS 2, [, 1]", "ROWBITS 2, [1, ]"].all (fun l => (assembleProgram l).isNone) = true := by
  decide +kernel
/-- ROWBITS from source text: the empty list and the list of eight bytes, byte 7 in the highest place. -/
theorem test_rowbits_lists :
    assembleProgram "ROWBITS 2, []" = some [⟨0x30020000#32, 0⟩] ∧
    assembleProgram "ROWBITS 2, [1, 2, 3, 4, 5, 6, 7, 8]" = some [⟨0x30020000#32, 0x0807060504030201#64⟩] ∧
    assembleProgram "ROWBITS 2, [1, 2, 3, 4, 5, 6, 7, 8, 9]" = none := by decide +kernel
theorem witness_step_runs :
    let s := { busy with port := [.command ⟨0x51000000#32, 0⟩] }
    s.port = .command ⟨0x51000000#32, 0⟩ :: [] ∧ decode ⟨0x51000000#32, 0⟩ = .ok (.scroll true) := by decide
theorem witness_step_waits : busy.port = [] := by decide
theorem witness_priority :
    let s := { busy with port := [.command ⟨0x60000001#32, 0⟩] }
    let d := { deadState with port := [.command ⟨0xA0000000#32, 0⟩] }
    s.port = .command ⟨0x60000001#32, 0⟩ :: [] ∧ s.life = .alive ∧ decode ⟨0x60000001#32, 0⟩ = .ok (.setVlen 1#16) ∧
      (1#16).toNat < s.chain ∧ s.params.vmax < (65#16).toNat ∧
      d.port = .command ⟨0xA0000000#32, 0⟩ :: [] ∧ d.life = .dead := by decide
theorem witness_refusal :
    let d := { deadState with refusalMark := true, port := [.command ⟨0x40000000#32, 0⟩] }
    d.life = .dead ∧ d.port = .command ⟨0x40000000#32, 0⟩ :: [] ∧ d.refusalMark = true ∧
      (nextOf (step d)).isSome = true := by decide
/-- The third clause's premise on the port, in a state with the mark set and a step. -/
theorem witness_refusal_no_reset : ∀ chain rev rest,
    { deadState with refusalMark := true, port := [.command ⟨0x40000000#32, 0⟩] }.port ≠ .reset chain rev :: rest := by
  intro chain rev rest h; cases h
theorem witness_only_dead_refuses : busy.Meaningful ∧ busy.life = .alive ∧ (nextOf (step busy)).isSome = true := by
  refine ⟨rfl, ?_, ?_⟩ <;> decide
/-- `ResetStateAndFrames`, `ResetLeavesRowsSynced`, `ResetMeetsTheInvariant`: the shortest and the longest chain. -/
theorem witness_reset_state : (testConfig 1 false).wellFormed = true ∧ (testConfig 8 true).wellFormed = true ∧
    (testConfig 8 true).params.controlsApart = true := by decide
theorem witness_reset_restarts :
    let s := { deadState with refusalMark := true, port := [.reset 8 true] }
    s.port = .reset 8 true :: [] ∧ Config.wellFormed ⟨8, true, s.params⟩ = true := by decide
theorem witness_configuration :
    (1 ≤ 8 ∧ 8 ≤ 8 ∧ 8 ≤ busy.params.vmax ∧ busy.params.vmax ≤ 8192 ∧ busy.params.initIntensity.toNat ≤ 15) ∧
    ¬ (1 ≤ 0 ∧ 0 ≤ 8) ∧ ¬ (1 ≤ 9 ∧ 9 ≤ 8) ∧
    (nextOf (step { busy with port := [.reset 9 false] })).isNone = true := by decide

theorem busy_lengths : busy.LengthsOk := by unfold State.LengthsOk; decide

/-- The cells at or beyond `VLEN = 3` of `busy` read 0x00. -/
theorem busy_unused : busy.UnusedZero := by
  intro r m h8 hm
  have hv : (3 : Nat) ≤ m := hm
  have hvb : busy.vb = [(1, 0x01#8), (9, 0x02#8), (17, 0x83#8)] := by decide
  simp only [State.readCell, hvb, Memory.readAt, cellAddr]
  rw [if_neg (by omega), if_neg (by omega), if_neg (by omega)]
  rfl

/-- `EveryStepKeepsTheInvariant`: a state that is not a reset state meets the invariant, and steps. -/
theorem witness_invariant :
    { busy with port := [.command ⟨0x51000000#32, 0⟩] }.Inv ∧
      (nextOf (step { busy with port := [.command ⟨0x51000000#32, 0⟩] })).isSome = true := by
  refine ⟨⟨busy_lengths, by decide, by decide, busy_unused, by unfold State.StatusLegal; decide, ⟨[], ?_, rfl⟩⟩, by decide⟩
  intro f h; cases h

/-- `CleanRowsMatchTheWire`: every row dirty, so that the property holds, and a FLUSH on the port. -/
theorem witness_clean_rows :
    let s := { testState 2 3 true (testRow 1 [0x01#8, 0x02#8, 0x83#8]) 0xFF#8 with port := [.command ⟨0x40000000#32, 0⟩] }
    s.params.controlsApart = true ∧ s.CleanRowsSynced ∧ decode ⟨0x40000000#32, 0⟩ = .ok .flush ∧
      (nextOf (step s)).isSome = true := by
  refine ⟨by decide, ?_, by decide, by decide⟩
  intro r h8 hd
  have hd : (0xFF#8).getLsbD r = false := hd
  exfalso; revert hd; interval_cases r <;> decide
theorem witness_clean_rows_port : ∀ tr rest row data,
    { busy with port := [.command ⟨0x40000000#32, 0⟩] }.port = .command tr :: rest →
      decode tr ≠ .ok (.setRowBits row data) := by
  intro tr rest row data h
  cases h
  have : decode ⟨0x40000000#32, 0⟩ = .ok .flush := by decide
  rw [this]; intro h; cases h

theorem witness_reverse_command : busy.life = .alive ∧ (0x90000100#32).extractLsb' 28 4 = 0x9#4 ∧
    0x90000100#32 &&& 0x0FFFFF00#32 ≠ 0#32 := by decide
theorem witness_only_reverse_writes_result : (∀ b, Instr.flush ≠ .reverse b) ∧ (nextOf (exec .flush busy)).isSome = true := by
  refine ⟨fun b h => (by cases h), by decide⟩
/-- In range at both ends, and out of range at the first row and column beyond (`SetPixelWritesOnePixel` too). -/
theorem witness_setpixel : busy.life = .alive ∧
    ((0#8).toNat < 8 ∧ (0#16).toNat < 8 * busy.vlen) ∧ ((7#8).toNat < 8 ∧ (23#16).toNat < 8 * busy.vlen) ∧
    (8 ≤ (8#8).toNat ∨ 8 * busy.vlen ≤ (0#16).toNat) ∧ (8 ≤ (0#8).toNat ∨ 8 * busy.vlen ≤ (24#16).toNat) ∧
    (0x12000000#32).extractLsb' 28 4 = 0x1#4 ∧ 0x12000000#32 &&& 0x0E000000#32 ≠ 0#32 := by decide
/-- `SetRowRule` and `RowReadsBackAfterSetRow`. -/
theorem witness_setrow : busy.life = .alive ∧ (7#8).toNat < 8 ∧ 8 ≤ (8#8).toNat ∧
    (0x21010001#32).extractLsb' 28 4 = 0x2#4 ∧ 0x21010001#32 &&& 0x0E00FFFF#32 ≠ 0#32 := by decide
/-- `SetRowBitsRule` and `FlushDoesNotResyncRawBits`. -/
theorem witness_setrowbits : busy.life = .alive ∧ (7#8).toNat < 8 ∧ 8 ≤ (8#8).toNat ∧ busy.isDirty (7#8).toNat = false ∧
    (0x31000000#32).extractLsb' 28 4 = 0x3#4 ∧ 0x31000000#32 &&& 0x0F00FFFF#32 ≠ 0#32 := by decide
theorem witness_repeated_mutation :
    ((nextOf (exec (.setPixel 7#8 23#16 true) busy)).bind fun t => nextOf (exec (.setPixel 7#8 23#16 true) t)).isSome = true ∧
    ((nextOf (exec (.setRow 7#8 true) busy)).bind fun t => nextOf (exec (.setRow 7#8 true) t)).isSome = true := by decide
/-- `FlushRule`, `FlushProperties`, `SecondFlushEmitsNothing`. -/
theorem witness_flush : busy.life = .alive ∧ (0x40000001#32).extractLsb' 28 4 = 0x4#4 ∧ 0x40000001#32 ≠ 0x40000000#32 := by
  decide
/-- Two states that differ in a clean row and in a virtual-only cell. -/
theorem witness_flush_reads :
    let s := testState 1 2 false [(0, 0x11#8), (3, 0x05#8), (8, 0x22#8)] 1#8
    let s' := testState 1 2 false [(0, 0x11#8), (8, 0x33#8)] 1#8
    s.life = .alive ∧ s'.life = .alive ∧ s.dirty = s'.dirty ∧ s.chain = s'.chain ∧ s.rev = s'.rev ∧ s.vb ≠ s'.vb ∧
      (∀ r, r < 8 → s.isDirty r = true → ∀ i, i < s.chain → s.readCell r i = s'.readCell r i) ∧
      (nextOf (exec .flush s)).isSome = true ∧ (nextOf (exec .flush s')).isSome = true := by decide
/-- One command of each kind completes, so `WritersOfDirty`, `OnlyFlushClearsADirtyFlag`, `CommandsAppendWholeFrames` and the
other statements about any next state have one. -/
theorem witness_every_command_completes :
    [Instr.setPixel 7#8 23#16 true, .setPixel 8#8 0#16 true, .setRow 7#8 true, .setRow 8#8 true, .setRowBits 7#8 1#64,
      .flush, .scroll true, .setVlen 2#16, .setVlen 64#16, .setVlen 65#16, .setVlen 1#16, .setIntensity 15#4, .shutdown,
      .reverse 0xB0#8].all (fun i => (nextOf (exec i busy)).isSome) = true ∧ busy.life = .alive ∧
      busy.isDirty 1 = true := by decide
/-- `ScrollRule`, `ScrollClosedForm`, `ScrollPixelCount`. -/
theorem witness_scroll : busy.life = .alive ∧ 1 ≤ busy.vlen ∧ (0 + 1 < busy.vlen) ∧ (22 + 1 < 8 * busy.vlen) ∧
    (0x50800000#32).extractLsb' 28 4 = 0x5#4 ∧ 0x50800000#32 &&& 0x0EFFFFFF#32 ≠ 0#32 ∧
    (nextOf (exec (.scroll true) busy)).isSome = true := by decide
theorem witness_single_module :
    let s := { testState 1 1 false (testRow 0 [0xB5#8]) 0#8 with
      port := List.replicate 8 (.command (encode (.scroll true))) }
    s.life = .alive ∧ s.vlen = 1 ∧ s.port = List.replicate 8 (.command (encode (.scroll true))) := by decide
/-- The lengths just below `CHAIN`, at both bounds and just above `VMAX` (`FlushAfterSetVlenBlanksTheDisplay` too). -/
theorem witness_setvlen : busy.life = .alive ∧ (1#16).toNat < busy.chain ∧
    (busy.chain ≤ (2#16).toNat ∧ (2#16).toNat ≤ busy.params.vmax) ∧
    (busy.chain ≤ (64#16).toNat ∧ (64#16).toNat ≤ busy.params.vmax) ∧
    (busy.chain ≤ (65#16).toNat ∧ busy.params.vmax < (65#16).toNat) ∧
    (0x60010002#32).extractLsb' 28 4 = 0x6#4 ∧ 0x60010002#32 &&& 0x0FFF0000#32 ≠ 0#32 := by decide
theorem witness_vlen_bounds : busy.LengthsOk ∧ (∀ n, Instr.flush ≠ .setVlen n) ∧
    (nextOf (exec (.setVlen 64#16) busy)).isSome = true := by
  refine ⟨busy_lengths, fun n h => (by cases h), by decide⟩
theorem witness_unused_storage : busy.UnusedZero ∧ busy.vlen ≤ 3 ∧ (nextOf (exec (.setVlen 2#16) busy)).isSome = true := by
  refine ⟨busy_unused, ?_, ?_⟩ <;> decide
theorem witness_setintensity : busy.life = .alive ∧ (0x70000010#32).extractLsb' 28 4 = 0x7#4 ∧
    0x70000010#32 &&& 0x0FFFFFF0#32 ≠ 0#32 := by decide
theorem witness_shutdown : busy.life = .alive ∧ (0x80000001#32).extractLsb' 28 4 = 0x8#4 ∧ 0x80000001#32 ≠ 0x80000000#32 := by
  decide
theorem witness_life : deadState.life = .dead ∧
    (nextOf (step { deadState with port := [.reset 1 false] })).map (·.life) = some .alive ∧
    (nextOf (exec .shutdown busy)).map (·.life) = some .dead := by decide
theorem witness_command_index :
    let s := { busy with port := [.command ⟨0x00000000#32, 0⟩] }
    let d := { deadState with port := [.command ⟨0x00000000#32, 0⟩] }
    s.life = .alive ∧ s.port = .command ⟨0x00000000#32, 0⟩ :: [] ∧ d.life = .dead ∧
      d.port = .command ⟨0x00000000#32, 0⟩ :: [] := by decide
theorem witness_configuration_read_only : (nextOf (applyReset busy 8 true)).isSome = true ∧
    (nextOf (step { busy with port := [.command ⟨0x51000000#32, 0⟩] })).isSome = true := by decide
theorem witness_configuration_read_only_port : ∀ chain rev rest,
    { busy with port := [.command ⟨0x51000000#32, 0⟩] }.port ≠ .reset chain rev :: rest := by
  intro chain rev rest h; cases h
theorem witness_wire_address_map :
    (nextOf (exec .flush busy)).map (·.events) = some (busy.events ++ wireFrame 2#8 [0x40#8, 0x80#8]) ∧
      Event.wr 2#8 0x40#8 ∈ wireFrame 2#8 [0x40#8, 0x80#8] ∧
      Event.wr 0x0F#8 0x00#8 ∈ (State.resetWith (testConfig 1 false)).events := by decide
/-- The first and the last pixel of a row, and the first ones beyond. -/
theorem witness_pixel_view : (0 < 8 ∧ 0 < 8 * busy.vlen) ∧ (7 < 8 ∧ 23 < 8 * busy.vlen) ∧
    ¬ (8 < 8 ∧ 0 < 8 * busy.vlen) ∧ ¬ (7 < 8 ∧ 24 < 8 * busy.vlen) ∧ 1 ≤ busy.vlen := by decide
/-- `ObservationDeterminesTheNext`: two states that differ in a cell and a port entry the port does not show. -/
theorem witness_observation :
    let s := { busy with vb := busy.vb ++ [(25, 0x01#8)], port := [.reset 1 false] }
    busy.chain ≤ busy.vlen ∧ observe busy = observe s ∧ busy.vb ≠ s.vb ∧ busy.params = s.params ∧
      (nextOf (exec (.scroll true) busy)).isSome = true ∧ (nextOf (exec (.scroll true) s)).isSome = true := by
  decide +kernel

end Sys2Proof.Tests
end

/-!
# The state of the block: reset, and who writes what (10_state.md)

A command is taken apart once, into `accept` around its body (`exec_eq_accept`, `exec_cases`); what the loops of the
bodies leave alone, and which command writes which register, is then said once (`Keeps`), and the statements follow.
-/

namespace Sys2Proof.Machine

/-! ### The initialization frames (70_reset_and_hazards.md R231) -/

theorem registerFrame_eq (chain : Nat) (a d : Byte) :
    registerFrame chain a d = [.sel] ++ List.replicate chain (.wr a d) ++ [.desel] := by
  simp [registerFrame, frame]

@[simp] theorem countWrites_registerFrame (chain : Nat) (a d : Byte) :
    countWrites (registerFrame chain a d) = chain := by
  rw [registerFrame, countWrites_frame, List.length_replicate]

/-- The table of R231, row by row. -/
theorem initWrites_eq (p : Params) :
    initWrites p =
      [(1#8, 0x00#8), (2#8, 0x00#8), (3#8, 0x00#8), (4#8, 0x00#8), (5#8, 0x00#8), (6#8, 0x00#8), (7#8, 0x00#8),
        (8#8, 0x00#8), (p.regDecode, p.valDecodeNone), (p.regIntensity, p.initIntensity),
        (p.regScanlimit, p.valScanlimitAll), (p.regShutdown, p.valShutdownExit),
        (p.regDisplaytest, p.valDisplaytestOff)] := rfl

/-- Frames of `chain` writes each: `chain` times as many writes as frames. -/
theorem countWrites_flatMap_registerFrame (chain : Nat) (ws : List (Byte × Byte)) :
    countWrites (ws.flatMap fun w => registerFrame chain w.1 w.2) = ws.length * chain := by
  induction ws with
  | nil => simp [countWrites]
  | cons w ws ih =>
    rw [List.flatMap_cons, countWrites_append, countWrites_registerFrame, ih, List.length_cons, Nat.succ_mul,
      Nat.add_comm]

theorem countWrites_initFrames (chain : Nat) (p : Params) : countWrites (initFrames chain p) = 13 * chain :=
  countWrites_flatMap_registerFrame chain (initWrites p)

/-- Settles O16: the fields are the laws of `State.resetWith`, the frames those of `initWrites_eq`. -/
theorem resetStateAndFrames : Obligations.ResetStateAndFrames := by
  intro k _ s register
  refine ⟨fun r m _ => Memory.readAt_zeroed _, rfl, fun r _ => ?_, rfl, rfl, rfl, rfl, rfl, rfl, ?_,
    countWrites_initFrames k.chain k.params⟩
  · simp [s, State.isDirty]
  · have hregister : ∀ a d, register a d = registerFrame k.chain a d := fun a d => (registerFrame_eq k.chain a d).symm
    simp [s, hregister, initFrames, initWrites_eq]

/-! ### The loops of the commands: the fields they leave alone -/

/-- The loop of SET_ROW (R112) writes the buffer and nothing else. -/
theorem State.fillRow_frame (s : State) (row : Nat) (v : Byte) : ∃ vb, s.fillRow row v = { s with vb := vb } := by
  unfold State.fillRow
  refine List.foldlRecOn (motive := fun (t : State) => ∃ vb, t = { s with vb := vb }) _ _ ⟨s.vb, rfl⟩ ?_
  rintro _ ⟨vb, rfl⟩ m -
  exact ⟨_, rfl⟩

/-- The loop of SCROLL (R150) writes the buffer and the stream and nothing else. -/
theorem scrollRows_frame (wrap : Bool) (s : State) :
    ∃ vb es, rows.foldl (State.scrollRow wrap) s = { s with vb := vb, events := es } := by
  refine List.foldlRecOn (motive := fun (t : State) => ∃ vb es, t = { s with vb := vb, events := es }) _ _
    ⟨s.vb, s.events, rfl⟩ ?_
  rintro _ ⟨vb, es, rfl⟩ r -
  exact ⟨_, _, rfl⟩

/-- The flag of a row is cleared whether the row was sent or not (R133). -/
@[simp] theorem State.flushRow_dirty (s : State) (r : Nat) : (s.flushRow r).dirty = (s.clearDirty r).dirty := by
  unfold State.flushRow
  split <;> simp

/-- The loop of FLUSH (R133) writes the flags and the stream and nothing else. -/
theorem flushRows_frame (s : State) :
    ∃ dirty es, rows.foldl State.flushRow s = { s with dirty := dirty, events := es } := by
  refine List.foldlRecOn (motive := fun (t : State) => ∃ dirty es, t = { s with dirty := dirty, events := es }) _ _
    ⟨s.dirty, s.events, rfl⟩ ?_
  rintro _ ⟨dirty, es, rfl⟩ r -
  unfold State.flushRow
  split
  · exact ⟨_, _, rfl⟩
  · exact ⟨_, _, rfl⟩

/-! ### One command, taken apart -/

/-- What an accepted command does once `CI` has advanced; `exec_eq_accept` ties it to `exec`. -/
def commandBody : Instr → State → State
  | .setPixel row col on, s =>
    if 8 ≤ row.toNat ∨ 8 * s.vlen ≤ col.toNat then s.done else (s.writePixel row.toNat col.toNat on).done
  | .setRow row allOn, s =>
    if 8 ≤ row.toNat then s.done else ((s.fillRow row.toNat (fillByte allOn)).setDirty row.toNat).done
  | .setRowBits row data, s =>
    if 8 ≤ row.toNat then s.done else (s.rowWrite row.toNat ((List.range s.chain).map (rawByte data))).done
  | .flush, s => (rows.foldl State.flushRow s).done
  | .scroll wrap, s => (rows.foldl (State.scrollRow wrap) s).done
  | .setVlen n, s =>
    if n.toNat < s.chain then s.fail statusRange
    else if s.params.vmax < n.toNat then s.fail statusAlloc
    else (State.setAllDirty { s with vlen := n.toNat, vb := Memory.zeroed }).done
  | .setIntensity level, s => (s.writeRegister s.params.regIntensity (level.setWidth 8)).done
  | .shutdown, s => { (s.writeRegister s.params.regShutdown s.params.valShutdownEnter).done with life := .dead }
  | .reverse b, s => State.done { s with result := reverseByte b }

theorem exec_eq_accept (i : Instr) (s : State) : exec i s = accept s (commandBody i) := by
  cases i <;> rfl

/-- All that a command can do: it is refused (R202), or its body runs after `CI` advanced (R31). -/
theorem exec_cases {i : Instr} {s t : State} (h : exec i s = .next t) :
    (s.life = .dead ∧ t = s.refuse) ∨ (s.life = .alive ∧ t = commandBody i s.advance) :=
  accept_cases (exec_eq_accept i s ▸ h)

/-! ### Who writes what (R25, R27, R29) -/

/-- The configuration of the block is as it was: `CHAIN`, `REV` (R27) and the OPEN parameters (R234). -/
structure SameConfig (s t : State) : Prop where
  chain : t.chain = s.chain
  rev : t.rev = s.rev
  params : t.params = s.params

/-- What the command `i` leaves alone on its way from `s` to `t`: the configuration, and `VLEN` and `RESULT` but for their
one writer each (R25, R29). -/
structure Keeps (i : Instr) (s t : State) : Prop extends SameConfig s t where
  vlen : (∀ n, i ≠ .setVlen n) → t.vlen = s.vlen
  result : (∀ b, i ≠ .reverse b) → t.result = s.result

/-- The form in which most commands meet `Keeps`: all five fields are as they were. -/
theorem Keeps.of_eq {i : Instr} {s t : State} (hchain : t.chain = s.chain) (hrev : t.rev = s.rev)
    (hparams : t.params = s.params) (hvlen : t.vlen = s.vlen) (hresult : t.result = s.result) : Keeps i s t :=
  ⟨⟨hchain, hrev, hparams⟩, fun _ => hvlen, fun _ => hresult⟩

theorem commandBody_keeps (i : Instr) (s : State) : Keeps i s (commandBody i s) := by
  cases i with
  | setPixel row col on =>
    rw [commandBody]
    split <;> exact .of_eq rfl rfl rfl rfl rfl
  | setRow row allOn =>
    obtain ⟨vb, hfill⟩ := s.fillRow_frame row.toNat (fillByte allOn)
    simp only [commandBody, hfill]
    split <;> exact .of_eq rfl rfl rfl rfl rfl
  | setRowBits row data =>
    rw [commandBody]
    split <;> exact .of_eq rfl rfl rfl rfl rfl
  | flush =>
    obtain ⟨dirty, es, hflush⟩ := flushRows_frame s
    simp only [commandBody, hflush]
    exact .of_eq rfl rfl rfl rfl rfl
  | scroll wrap =>
    obtain ⟨vb, es, hscroll⟩ := scrollRows_frame wrap s
    simp only [commandBody, hscroll]
    exact .of_eq rfl rfl rfl rfl rfl
  | setVlen n =>
    rw [commandBody]
    split_ifs
    · exact .of_eq rfl rfl rfl rfl rfl
    · exact .of_eq rfl rfl rfl rfl rfl
    · exact ⟨⟨rfl, rfl, rfl⟩, fun hi => absurd rfl (hi n), fun _ => rfl⟩
  | setIntensity level => exact .of_eq rfl rfl rfl rfl rfl
  | shutdown => exact .of_eq rfl rfl rfl rfl rfl
  | reverse b => exact ⟨⟨rfl, rfl, rfl⟩, fun _ => rfl, fun hi => absurd rfl (hi b)⟩

theorem exec_keeps {i : Instr} {s t : State} (h : exec i s = .next t) : Keeps i s t := by
  rcases exec_cases h with ⟨-, rfl⟩ | ⟨-, rfl⟩
  · exact .of_eq rfl rfl rfl rfl rfl
  · obtain ⟨⟨hchain, hrev, hparams⟩, hvlen, hresult⟩ := commandBody_keeps i s.advance
    exact ⟨⟨hchain, hrev, hparams⟩, hvlen, hresult⟩

/-- Settles O26, by the table of writers. -/
theorem onlyReverseWritesResult : Obligations.OnlyReverseWritesResult :=
  fun _ _ _ hi h => (exec_keeps h).result hi

/-! ### The configuration (R27) -/

theorem execIllegal_keeps {s t : State} (h : execIllegal s = .next t) : SameConfig s t ∧ t.vlen = s.vlen := by
  rcases accept_cases h with ⟨-, rfl⟩ | ⟨-, rfl⟩
  · exact ⟨⟨rfl, rfl, rfl⟩, rfl⟩
  · exact ⟨⟨rfl, rfl, rfl⟩, rfl⟩

/-- A reset that constructs a block had a well-formed configuration (R6), and leaves `State.resetTo`. -/
theorem applyReset_eq_next {s t : State} {chain : Nat} {rev : Bool} (h : applyReset s chain rev = .next t) :
    Config.wellFormed ⟨chain, rev, s.params⟩ = true ∧ t = s.resetTo chain rev := by
  rcases applyReset_cases s chain rev with ⟨hwf, he⟩ | ⟨-, he⟩
  · rw [he] at h
    exact ⟨hwf, (Host.Outcome.next.inj h).symm⟩
  · rw [he] at h
    cases h

/-- No step but a reset writes the configuration. -/
theorem step_sameConfig {s t : State} (hport : ∀ chain rev rest, s.port ≠ .reset chain rev :: rest)
    (h : step s = .next t) : SameConfig s t := by
  rcases step_cases s with ⟨-, he⟩ | ⟨_, rest, i, -, -, he⟩ | ⟨_, rest, e, -, -, he⟩ | ⟨chain, rev, rest, hp, -⟩
  · cases he.symm.trans h
    exact ⟨rfl, rfl, rfl⟩
  · obtain ⟨hchain, hrev, hparams⟩ := (exec_keeps (he.symm.trans h)).toSameConfig
    exact ⟨hchain, hrev, hparams⟩
  · obtain ⟨⟨hchain, hrev, hparams⟩, -⟩ := execIllegal_keeps (he.symm.trans h)
    exact ⟨hchain, hrev, hparams⟩
  · exact absurd hp (hport chain rev rest)

/-- Settles O52: R6 bounds what a reset samples, and `step_sameConfig` is the rest. -/
theorem configurationIsReadOnly : Obligations.ConfigurationIsReadOnly := by
  refine ⟨fun s t chain rev h => ?_, fun s t hport h => ?_⟩
  · obtain ⟨hwf, rfl⟩ := applyReset_eq_next h
    obtain ⟨hlow, hhigh, -⟩ := (wellFormed_iff _).1 hwf
    exact ⟨rfl, rfl, hlow, hhigh, rfl⟩
  · obtain ⟨hchain, hrev, hparams⟩ := step_sameConfig hport h
    exact ⟨hchain, hrev, hparams⟩

/-! ### The lengths (R25) -/

/-- SET_VLEN refuses every length outside the bounds of R170, so it leaves `VLEN` or sets one within them. -/
theorem commandBody_setVlen_vlen (n : BitVec 16) (s : State) :
    (commandBody (.setVlen n) s).vlen = s.vlen ∨
      ((commandBody (.setVlen n) s).vlen = n.toNat ∧ s.chain ≤ n.toNat ∧ n.toNat ≤ s.params.vmax) := by
  rw [commandBody]
  split_ifs with hlow hhigh
  · exact .inl rfl
  · exact .inl rfl
  · exact .inr ⟨rfl, not_lt.1 hlow, not_lt.1 hhigh⟩

theorem exec_setVlen_vlen {n : BitVec 16} {s t : State} (h : exec (.setVlen n) s = .next t) :
    t.vlen = s.vlen ∨ (t.vlen = n.toNat ∧ s.chain ≤ n.toNat ∧ n.toNat ≤ s.params.vmax) := by
  rcases exec_cases h with ⟨-, rfl⟩ | ⟨-, rfl⟩
  · exact .inl rfl
  · exact commandBody_setVlen_vlen n s.advance

/-- What a command leaves in `VLEN` lies within the bounds if what it found there did. -/
theorem exec_vlen_bounds {i : Instr} {s t : State} (h : exec i s = .next t) (hlow : s.chain ≤ s.vlen)
    (hhigh : s.vlen ≤ s.params.vmax) : s.chain ≤ t.vlen ∧ t.vlen ≤ s.params.vmax := by
  by_cases hi : ∃ n, i = .setVlen n
  · obtain ⟨n, rfl⟩ := hi
    rcases exec_setVlen_vlen h with hv | ⟨hv, hn⟩
    · exact hv ▸ ⟨hlow, hhigh⟩
    · exact hv ▸ hn
  · have hv := (exec_keeps h).vlen (not_exists.1 hi)
    exact hv ▸ ⟨hlow, hhigh⟩

/-- The bounds are about `CHAIN`, `VLEN` and the parameters alone. -/
theorem State.LengthsOk.of_vlen_bounds {s t : State} (hs : s.LengthsOk) (hc : SameConfig s t)
    (hv : s.chain ≤ t.vlen ∧ t.vlen ≤ s.params.vmax) : t.LengthsOk := by
  obtain ⟨hchain, -, hparams⟩ := hc
  obtain ⟨h1, h8, -, -, hvmax⟩ := hs
  rw [State.LengthsOk, hchain, hparams]
  exact ⟨h1, h8, hv.1, hv.2, hvmax⟩

/-- At reset `VLEN = CHAIN`, and R6 has `CHAIN ≤ 8 ≤ VMAX`. -/
theorem State.LengthsOk.of_wellFormed {k : Config} (hk : k.wellFormed = true) {t : State} (hchain : t.chain = k.chain)
    (hvlen : t.vlen = k.chain) (hparams : t.params = k.params) : t.LengthsOk := by
  obtain ⟨h1, h8, hmin, hmax, -⟩ := (wellFormed_iff k).1 hk
  rw [State.LengthsOk, hchain, hvlen, hparams]
  exact ⟨h1, h8, le_rfl, h8.trans hmin, hmin, hmax⟩

theorem step_lengthsOk {s t : State} (hs : s.LengthsOk) (h : step s = .next t) : t.LengthsOk := by
  have ⟨_, _, hlow, hhigh, _⟩ := hs
  rcases step_cases s with ⟨-, he⟩ | ⟨_, rest, i, -, -, he⟩ | ⟨_, rest, e, -, -, he⟩ | ⟨chain, rev, rest, -, he⟩
  · cases he.symm.trans h
    exact hs
  · have hexec := he.symm.trans h
    have hport : State.LengthsOk { s with port := rest } := hs
    exact hport.of_vlen_bounds (exec_keeps hexec).toSameConfig (exec_vlen_bounds hexec hlow hhigh)
  · obtain ⟨hc, hv⟩ := execIllegal_keeps (he.symm.trans h)
    have hport : State.LengthsOk { s with port := rest } := hs
    exact hport.of_vlen_bounds hc ⟨hlow.trans_eq hv.symm, hv.trans_le hhigh⟩
  · obtain ⟨hwf, rfl⟩ := applyReset_eq_next (he.symm.trans h)
    exact .of_wellFormed hwf rfl rfl rfl

/-- Settles O46: the step lemma, reset, and the one writer. -/
theorem vlenBoundsAndItsOneWriter : Obligations.VlenBoundsAndItsOneWriter :=
  ⟨fun _ _ => step_lengthsOk, fun _ hk => .of_wellFormed hk rfl rfl rfl, fun _ _ _ hi h => (exec_keeps h).vlen hi,
    fun _ _ _ => exec_setVlen_vlen⟩

/-! ### The Row Dirty Set (R26) -/

theorem State.isDirty_congr {s t : State} (h : t.dirty = s.dirty) (r : Nat) : t.isDirty r = s.isDirty r := by
  rw [State.isDirty, State.isDirty, h]

/-- A loop of FLUSH over some rows clears the flags of those rows and keeps the others. -/
theorem isDirty_foldl_flushRow {r : Nat} (hr : r < 8) (rs : List Nat) (hrs : ∀ r' ∈ rs, r' < 8) (s : State) :
    (rs.foldl State.flushRow s).isDirty r = (!decide (r ∈ rs) && s.isDirty r) := by
  induction rs generalizing s with
  | nil => simp
  | cons r' rs ih =>
    obtain ⟨hr', hrest⟩ := List.forall_mem_cons.1 hrs
    rw [List.foldl_cons, ih hrest, State.isDirty_congr (s.flushRow_dirty r') r, s.isDirty_clearDirty hr' hr]
    by_cases heq : r = r' <;> simp [heq]

/-- FLUSH visits every row, so no flag is left (R134). -/
theorem flushRows_dirty (s : State) : (rows.foldl State.flushRow s).dirty = 0x00#8 := by
  refine BitVec.eq_of_getLsbD_eq fun r hr => ?_
  have hclear := isDirty_foldl_flushRow hr rows (fun _ => mem_rows.1) s
  simpa [State.isDirty, mem_rows.2 hr] using hclear

theorem setPixel_isDirty {row : BitVec 8} {col : BitVec 16} (on : Bool) {s : State} (hrow : row.toNat < 8)
    (hcol : col.toNat < 8 * s.vlen) {r : Nat} (hr : r < 8) :
    (commandBody (.setPixel row col on) s).isDirty r = (decide (r = row.toNat) || s.isDirty r) := by
  rw [commandBody, if_neg (by omega)]
  exact State.isDirty_setDirty _ hrow hr

theorem setPixel_dirty_of_outside {row : BitVec 8} {col : BitVec 16} (on : Bool) {s : State}
    (h : ¬ (row.toNat < 8 ∧ col.toNat < 8 * s.vlen)) : (commandBody (.setPixel row col on) s).dirty = s.dirty := by
  rw [commandBody, if_pos (by omega), State.done_dirty]

theorem setRow_isDirty {row : BitVec 8} (allOn : Bool) (s : State) (hrow : row.toNat < 8) {r : Nat} (hr : r < 8) :
    (commandBody (.setRow row allOn) s).isDirty r = (decide (r = row.toNat) || s.isDirty r) := by
  obtain ⟨vb, hfill⟩ := s.fillRow_frame row.toNat (fillByte allOn)
  rw [commandBody, if_neg (by omega), hfill]
  exact State.isDirty_setDirty _ hrow hr

theorem setRow_dirty_of_outside {row : BitVec 8} (allOn : Bool) (s : State) (hrow : 8 ≤ row.toNat) :
    (commandBody (.setRow row allOn) s).dirty = s.dirty := by
  rw [commandBody, if_pos hrow, State.done_dirty]

theorem setRowBits_dirty (row : BitVec 8) (data : DataWord) (s : State) :
    (commandBody (.setRowBits row data) s).dirty = s.dirty := by
  rw [commandBody]
  split
  · rfl
  · rfl

theorem setVlen_dirty_of_inside {n : BitVec 16} {s : State} (h : s.chain ≤ n.toNat ∧ n.toNat ≤ s.params.vmax) :
    (commandBody (.setVlen n) s).dirty = 0xFF#8 := by
  rw [commandBody, if_neg (by omega), if_neg (by omega), State.done_dirty, State.setAllDirty_dirty]

theorem setVlen_dirty_of_outside {n : BitVec 16} {s : State} (h : ¬ (s.chain ≤ n.toNat ∧ n.toNat ≤ s.params.vmax)) :
    (commandBody (.setVlen n) s).dirty = s.dirty := by
  rw [commandBody]
  split_ifs with hlow hhigh
  · rfl
  · rfl
  · exact absurd ⟨by omega, by omega⟩ h

theorem flush_dirty (s : State) : (commandBody .flush s).dirty = 0x00#8 := flushRows_dirty s

theorem scroll_dirty (wrap : Bool) (s : State) : (commandBody (.scroll wrap) s).dirty = s.dirty := by
  obtain ⟨vb, es, hscroll⟩ := scrollRows_frame wrap s
  rw [commandBody, hscroll, State.done_dirty]

theorem isDirty_of_dirty_eq_ones {t : State} (h : t.dirty = 0xFF#8) {r : Nat} (hr : r < 8) : t.isDirty r = true := by
  rw [State.isDirty, h]
  interval_cases r <;> rfl

/-- Settles O38: while alive the command's body runs, and each body's effect on the flags is a lemma above. -/
theorem writersOfDirty : Obligations.WritersOfDirty := by
  intro i s t halive h
  obtain ⟨hdead, -⟩ | ⟨-, rfl⟩ := exec_cases h
  · rw [halive] at hdead
    cases hdead
  cases i with
  | setPixel row col on =>
    exact ⟨fun hin r hr => setPixel_isDirty (s := s.advance) on hin.1 hin.2 hr, fun hout => setPixel_dirty_of_outside on hout⟩
  | setRow row allOn =>
    exact ⟨fun hrow r hr => setRow_isDirty allOn s.advance hrow hr, setRow_dirty_of_outside allOn s.advance⟩
  | setVlen n =>
    exact ⟨fun hin r hr => isDirty_of_dirty_eq_ones (setVlen_dirty_of_inside (s := s.advance) hin) hr,
      fun hout => setVlen_dirty_of_outside hout⟩
  | flush =>
    intro r hr
    rw [State.isDirty, flush_dirty, BitVec.getLsbD_zero]
  | setRowBits row data => exact setRowBits_dirty row data s.advance
  | scroll wrap => exact scroll_dirty wrap s.advance
  | setIntensity level => rfl
  | shutdown => rfl
  | reverse b => rfl

end Sys2Proof.Machine

/-!
# Clean rows match the wire (20_memory.md R65)

Whether a row is synced is a matter of its cells, `CHAIN`, `REV` and the stream, so each shared operation meets it once: a
row sent is synced, and a frame to another address, or a write to another row, leaves it so. The loops of FLUSH and SCROLL
then keep "every clean row is synced" turn by turn, with no closed form of what they leave.
-/

namespace Sys2Proof.Machine

/-! ### Row registers and control registers -/

/-- R65's premise: a control register is no row register. -/
theorem ne_wireAddr_of_controlsApart {p : Params} (hp : p.controlsApart = true) {a : Byte}
    (ha : a ∈ [p.regDecode, p.regIntensity, p.regScanlimit, p.regShutdown, p.regDisplaytest]) {r : Nat} (hr : r < 8) :
    a ≠ wireAddr r := by
  have hapart : a.toNat = 0 ∨ 8 < a.toNat := by simpa using List.all_eq_true.1 hp a ha
  rintro rfl
  simp only [wireAddr, BitVec.toNat_ofNat] at hapart
  omega

theorem wimg_registerFrame (es : List Event) {chain k : Nat} (hk : k < chain) (a' d a : Byte) :
    wimg (es ++ registerFrame chain a' d) k a = if a' = a then some d else wimg es k a := by
  simp [registerFrame, wimg_frame, hk]

/-- A register holds `d` after a run of register writes that write nothing else to it, if one of them writes it or it held
`d` before. -/
theorem wimg_flatMap_registerFrame {chain k : Nat} (hk : k < chain) {a d : Byte} {ws : List (Byte × Byte)}
    (honly : ∀ w ∈ ws, w.1 = a → w.2 = d) {es : List Event} (hd : (a, d) ∈ ws ∨ wimg es k a = some d) :
    wimg (es ++ ws.flatMap fun w => registerFrame chain w.1 w.2) k a = some d := by
  induction ws generalizing es with
  | nil => simpa using hd
  | cons w ws ih =>
    obtain ⟨hw, hws⟩ := List.forall_mem_cons.1 honly
    rw [List.flatMap_cons, ← List.append_assoc]
    refine ih hws ?_
    rw [wimg_registerFrame es hk]
    by_cases ha : w.1 = a
    · exact .inr (by rw [if_pos ha, hw ha])
    · rw [if_neg ha]
      exact hd.imp_left fun hmem => (List.mem_cons.1 hmem).resolve_left fun he => ha (congrArg Prod.fst he).symm

/-- The initialization frames leave 0x00 in every row register, whatever the stream was before them (R231). -/
theorem wimg_initFrames {p : Params} (hp : p.controlsApart = true) {chain k r : Nat} (hk : k < chain) (hr : r < 8)
    (es : List Event) : wimg (es ++ initFrames chain p) k (wireAddr r) = some 0x00#8 := by
  refine wimg_flatMap_registerFrame hk (fun w hw ha => ?_) (.inl ?_)
  · rcases List.mem_append.1 hw with hrow | hcontrol
    · obtain ⟨r', -, rfl⟩ := List.mem_map.1 hrow
      rfl
    · exact absurd ha (ne_wireAddr_of_controlsApart hp (List.mem_map_of_mem (f := Prod.fst) hcontrol) hr)
  · exact List.mem_append_left _ (List.mem_map.2 ⟨r, List.mem_range.2 hr, rfl⟩)

/-! ### Cells of the other rows -/

theorem State.readCell_writeCell_of_ne (s : State) {row r : Nat} (hrow : row < 8) (hr : r < 8) (hne : r ≠ row)
    (m m' : Nat) (v : Byte) : (s.writeCell row m v).readCell r m' = s.readCell r m' := by
  rw [s.readCell_writeCell row m v m' hrow hr, if_neg fun h => hne h.1]

theorem State.readCell_fillRow_of_ne (s : State) {row r : Nat} (hrow : row < 8) (hr : r < 8) (hne : r ≠ row) (v : Byte)
    (k : Nat) : (s.fillRow row v).readCell r k = s.readCell r k := by
  unfold State.fillRow
  refine List.foldlRecOn (motive := fun (t : State) => t.readCell r k = s.readCell r k) _ _ rfl fun t ht m _ => ?_
  rw [t.readCell_writeCell_of_ne hrow hr hne, ht]

/-- The shift of a row writes that row alone (R150). -/
theorem readAt_shiftRow_of_ne (vlen : Nat) (wrap : Bool) (vb : Memory) {row r : Nat} (hrow : row < 8) (hr : r < 8)
    (hne : r ≠ row) (k : Nat) : (shiftRow vlen wrap vb row).readAt (cellAddr r k) = vb.readAt (cellAddr r k) := by
  unfold shiftRow
  refine List.foldlRecOn (motive := fun (a : Shift) => a.vb.readAt (cellAddr r k) = vb.readAt (cellAddr r k)) _ _ rfl
    fun a ha i _ => ?_
  rw [shiftModule, Memory.readAt_writeAt_cell _ _ _ _ hrow hr, if_neg fun h => hne h.1, ha]

/-! ### One row -/

/-- All that `Synced` looks at. -/
theorem State.Synced.congr {s t : State} {r : Nat} (hs : s.Synced r) (hchain : t.chain = s.chain) (hrev : t.rev = s.rev)
    (hevents : t.events = s.events) (hcells : ∀ k, t.readCell r k = s.readCell r k) : t.Synced r := by
  intro k hk
  rw [hevents, hrev, hcells k]
  exact hs k (hchain ▸ hk)

/-- A row just sent is synced, whatever the wire held (R131). -/
theorem State.synced_transmitRow (s : State) (r : Nat) : (s.transmitRow r).Synced r := by
  intro k (hk : k < s.chain)
  rw [s.transmitRow_events, wimg_frame, if_pos ⟨rfl, by simpa using hk⟩]
  exact s.proj_getElem? r hk

theorem State.Synced.emit_frame {s : State} {r : Nat} (hs : s.Synced r) {a : Byte} (ha : a ≠ wireAddr r)
    (bytes : List Byte) : (s.emit (frame a bytes)).Synced r := by
  intro k hk
  rw [s.emit_events, wimg_frame, if_neg fun h => ha h.1]
  exact hs k hk

theorem State.Synced.transmitRow {s : State} {r : Nat} (hs : s.Synced r) (hr : r < 8) {row : Nat} (hrow : row < 8) :
    (s.transmitRow row).Synced r := by
  by_cases hne : row = r
  · exact hne ▸ s.synced_transmitRow row
  · exact hs.emit_frame (fun ha => hne ((wireAddr_inj hrow hr).1 ha)) _

/-! ### Every clean row -/

/-- A command that emits nothing and writes cells of no row but the one it marks dirty (R110, R112). -/
theorem State.CleanRowsSynced.setDirty {s t : State} (hs : s.CleanRowsSynced) {row : Nat} (hrow : row < 8)
    (hchain : t.chain = s.chain) (hrev : t.rev = s.rev) (hevents : t.events = s.events) (hdirty : t.dirty = s.dirty)
    (hcells : ∀ r, r < 8 → r ≠ row → ∀ k, t.readCell r k = s.readCell r k) : (t.setDirty row).CleanRowsSynced := by
  intro r hr hclean
  rw [t.isDirty_setDirty hrow hr, Bool.or_eq_false_iff, decide_eq_false_iff_not, State.isDirty_congr hdirty] at hclean
  obtain ⟨hne, hclean⟩ := hclean
  exact (hs r hr hclean).congr hchain hrev hevents (hcells r hr hne)

/-- A frame to a control register touches no row register. -/
theorem State.CleanRowsSynced.writeRegister {s : State} (hs : s.CleanRowsSynced) {a : Byte}
    (ha : ∀ r, r < 8 → a ≠ wireAddr r) (d : Byte) : (s.writeRegister a d).CleanRowsSynced :=
  fun r hr hclean => (hs r hr hclean).emit_frame (ha r hr) _

/-- One turn of FLUSH: the flag that goes down belongs to a row that was clean or has just been sent (R133). -/
theorem State.CleanRowsSynced.flushRow {s : State} (hs : s.CleanRowsSynced) {row : Nat} (hrow : row < 8) :
    (s.flushRow row).CleanRowsSynced := by
  intro r hr hclean
  rw [State.isDirty_congr (s.flushRow_dirty row), s.isDirty_clearDirty hrow hr] at hclean
  unfold State.flushRow
  split
  case isTrue =>
    by_cases hne : r = row
    · exact hne ▸ s.synced_transmitRow row
    · exact (hs r hr (by simpa [hne] using hclean)).transmitRow hr hrow
  case isFalse hdirty =>
    by_cases hne : r = row
    · exact hs r hr (hne ▸ Bool.eq_false_of_not_eq_true hdirty)
    · exact hs r hr (by simpa [hne] using hclean)

/-- One turn of SCROLL: the row it shifts is sent at once, dirty or not, and no other row changes (R150, R151). -/
theorem State.CleanRowsSynced.scrollRow {s : State} (hs : s.CleanRowsSynced) (wrap : Bool) {row : Nat} (hrow : row < 8) :
    (s.scrollRow wrap row).CleanRowsSynced := by
  intro r hr hclean
  by_cases hne : r = row
  · exact hne ▸ State.synced_transmitRow _ row
  · have hshift : State.Synced { s with vb := shiftRow s.vlen wrap s.vb row } r :=
      (hs r hr hclean).congr rfl rfl rfl fun k => readAt_shiftRow_of_ne s.vlen wrap s.vb hrow hr hne k
    exact hshift.transmitRow hr hrow

/-- R65's list of cases, command by command; SET_ROW_BITS alone breaks the property (R242). -/
theorem commandBody_cleanRowsSynced {i : Instr} (hi : ∀ row data, i ≠ .setRowBits row data) {s : State}
    (hp : s.params.controlsApart = true) (hs : s.CleanRowsSynced) : (commandBody i s).CleanRowsSynced := by
  cases i with
  | setPixel row col on =>
    rw [commandBody]
    split
    case isTrue => exact hs
    case isFalse hin =>
      have hrow : row.toNat < 8 := by omega
      exact hs.setDirty hrow rfl rfl rfl rfl fun r hr hne k => s.readCell_writeCell_of_ne hrow hr hne _ k _
  | setRow row allOn =>
    rw [commandBody]
    split
    case isTrue => exact hs
    case isFalse hin =>
      have hrow : row.toNat < 8 := by omega
      obtain ⟨vb, hfill⟩ := s.fillRow_frame row.toNat (fillByte allOn)
      exact hs.setDirty hrow (by rw [hfill]) (by rw [hfill]) (by rw [hfill]) (by rw [hfill])
        fun r hr hne k => s.readCell_fillRow_of_ne hrow hr hne _ k
  | setRowBits row data => exact absurd rfl (hi row data)
  | flush =>
    exact List.foldlRecOn (motive := State.CleanRowsSynced) rows _ hs fun _ ht _ hrow => ht.flushRow (mem_rows.1 hrow)
  | scroll wrap =>
    exact List.foldlRecOn (motive := State.CleanRowsSynced) rows _ hs fun _ ht _ hrow => ht.scrollRow wrap (mem_rows.1 hrow)
  | setVlen n =>
    rw [commandBody]
    split_ifs
    · exact hs
    · exact hs
    · intro r hr hclean
      have hdirty := isDirty_of_dirty_eq_ones (State.setAllDirty_dirty { s with vlen := n.toNat, vb := Memory.zeroed }) hr
      exact absurd (hdirty.symm.trans hclean) Bool.noConfusion
  | setIntensity level =>
    exact hs.writeRegister (fun r hr => ne_wireAddr_of_controlsApart hp (by simp) hr) _
  | shutdown =>
    exact hs.writeRegister (fun r hr => ne_wireAddr_of_controlsApart hp (by simp) hr) _
  | reverse b => exact hs

/-- After a reset the buffer and every row register hold 0x00, and the codec keeps 0x00 (R36, R231, R100). -/
theorem cleanRowsSynced_of_initFrames {t : State} (hp : t.params.controlsApart = true) (hvb : t.vb = Memory.zeroed)
    {es : List Event} (hevents : t.events = es ++ initFrames t.chain t.params) : t.CleanRowsSynced := by
  intro r hr _ k hk
  rw [hevents, wimg_initFrames hp hk hr, State.readCell, hvb, Memory.readAt_zeroed, enc_zero]

theorem step_cleanRowsSynced {s t : State} (hp : s.params.controlsApart = true) (hs : s.CleanRowsSynced)
    (hbits : ∀ tr rest row data, s.port = .command tr :: rest → decode tr ≠ .ok (.setRowBits row data))
    (h : step s = .next t) : t.CleanRowsSynced := by
  rcases step_cases s with ⟨-, he⟩ | ⟨tr, rest, i, hport, hdec, he⟩ | ⟨_, rest, e, -, -, he⟩ | ⟨chain, rev, rest, -, he⟩
  · cases he.symm.trans h
    exact hs
  · have hi : ∀ row data, i ≠ .setRowBits row data := fun row data hi => hbits tr rest row data hport (hi ▸ hdec)
    rcases exec_cases (he.symm.trans h) with ⟨-, rfl⟩ | ⟨-, rfl⟩
    · exact hs
    · exact commandBody_cleanRowsSynced hi hp hs
  · rcases accept_cases (he.symm.trans h) with ⟨-, rfl⟩ | ⟨-, rfl⟩
    · exact hs
    · exact hs
  · obtain ⟨-, rfl⟩ := applyReset_eq_next (he.symm.trans h)
    exact cleanRowsSynced_of_initFrames (es := s.events) hp rfl rfl

/-- Settles O22: reset by its initialization frames, each step by `step_cleanRowsSynced`. -/
theorem cleanRowsMatchTheWire : Obligations.CleanRowsMatchTheWire :=
  ⟨fun _ _ hp => cleanRowsSynced_of_initFrames (es := []) hp rfl rfl, fun _ _ => step_cleanRowsSynced⟩

end Sys2Proof.Machine

/-!
# The decoder and the assembler (30_encoding.md)

A row of the opcode map selects a word exactly when the word has the row's `OP` and none of its must-be-zero bits
(`Opcode.selects_iff`). So at most one row selects a word, `decode` answers by the row that does (`decode_eq_ok_iff`),
and a word no row selects falls under one of R76's two cases (`decode_error_iff`).
-/

namespace Sys2Proof

/-! ### The rows of the opcode map (R72, R73) -/

theorem Opcode.mem_all (o : Opcode) : o ∈ Opcode.all := by cases o <;> decide

/-- The `OP` values that name a command: all but R76's 0x0 and 0xA to 0xF. -/
theorem Opcode.exists_code_eq_iff :
    ∀ op : BitVec 4, (∃ o ∈ Opcode.all, op = o.code) ↔ ¬ (op = 0x0#4 ∨ 0xA#4 ≤ op) := by decide

theorem Opcode.code_injective {o o' : Opcode} (h : o.code = o'.code) : o = o' := by
  have hall : ∀ o ∈ Opcode.all, ∀ o' ∈ Opcode.all, o.code = o'.code → o = o' := by decide
  exact hall o o.mem_all o' o'.mem_all h

/-- R73's mask is the `OP` field and R72's must-be-zero bits. -/
theorem Opcode.mask_eq (o : Opcode) : o.mask = 0xF0000000#32 ||| o.mustBeZero := by cases o <;> rfl

theorem Opcode.mask_and_opField (o : Opcode) : o.mask &&& 0xF0000000#32 = 0xF0000000#32 := by cases o <;> rfl

theorem Opcode.mask_and_mustBeZero (o : Opcode) : o.mask &&& o.mustBeZero = o.mustBeZero := by cases o <;> rfl

/-- R73's match is the `OP` value in its field, zero elsewhere. -/
theorem Opcode.pattern_eq (o : Opcode) : o.pattern = field o.code 28 := by cases o <;> rfl

theorem Opcode.pattern_and_opField (o : Opcode) : o.pattern &&& 0xF0000000#32 = o.pattern := by cases o <;> rfl

theorem Opcode.pattern_and_mustBeZero (o : Opcode) : o.pattern &&& o.mustBeZero = 0#32 := by cases o <;> rfl

/-- The `OP` field alone of a word. -/
theorem CmdWord.and_opField (c : CmdWord) : c &&& 0xF0000000#32 = field c.op 28 := by
  ext i hi
  simp only [field, CmdWord.op, BitVec.getElem_and, BitVec.getElem_shiftLeft, BitVec.getElem_setWidth]
  interval_cases i <;> simp

/-- Putting a value in the `OP` field, then reading it. -/
theorem CmdWord.op_field : ∀ x : BitVec 4, (field x 28).op = x := by decide

/-- R73's test is R72's format: the row's `OP`, and no must-be-zero bit set. -/
theorem Opcode.selects_iff (o : Opcode) (c : CmdWord) :
    o.selects c = true ↔ c.op = o.code ∧ c &&& o.mustBeZero = 0#32 := by
  rw [Opcode.selects, decide_eq_true_iff]
  constructor
  · intro h
    have hfield : field c.op 28 = field o.code 28 := by
      calc
        field c.op 28 = c &&& 0xF0000000#32 := c.and_opField.symm
        _ = c &&& o.mask &&& 0xF0000000#32 := by rw [BitVec.and_assoc, o.mask_and_opField]
        _ = field o.code 28 := by rw [h, o.pattern_and_opField, o.pattern_eq]
    have hzero : c &&& o.mustBeZero = 0#32 := by
      calc
        c &&& o.mustBeZero = c &&& o.mask &&& o.mustBeZero := by rw [BitVec.and_assoc, o.mask_and_mustBeZero]
        _ = 0#32 := by rw [h, o.pattern_and_mustBeZero]
    have hop : c.op = o.code := by rw [← CmdWord.op_field c.op, hfield, CmdWord.op_field]
    exact ⟨hop, hzero⟩
  · rintro ⟨hop, hzero⟩
    rw [o.mask_eq, BitVec.and_or_distrib_left, hzero, BitVec.or_zero, CmdWord.and_opField, hop, o.pattern_eq]

/-- R74: at most one row selects a word. -/
theorem Opcode.eq_of_selects {c : CmdWord} {o o' : Opcode} (h : o.selects c = true) (h' : o'.selects c = true) :
    o = o' := by
  obtain ⟨hop, -⟩ := (o.selects_iff c).1 h
  obtain ⟨hop', -⟩ := (o'.selects_iff c).1 h'
  exact Opcode.code_injective (hop.symm.trans hop')

/-! ### The decoder (R74) -/

theorem decode_eq_ok_iff {t : Transfer} {i : Instr} :
    decode t = .ok i ↔ ∃ o : Opcode, o.selects t.c = true ∧ o.build t = i := by
  unfold decode
  split
  next o hfind =>
    have ho : o.selects t.c = true := List.find?_some (p := fun o : Opcode => o.selects t.c) hfind
    constructor
    · intro h
      exact ⟨o, ho, Except.ok.inj h⟩
    · rintro ⟨o', ho', rfl⟩
      rw [Opcode.eq_of_selects ho ho']
  next hfind =>
    constructor
    · intro h
      cases h
    · rintro ⟨o, ho, -⟩
      exact absurd ho (List.find?_eq_none.1 hfind o o.mem_all)

/-- A word is illegal exactly when no row selects it. -/
theorem decode_error_iff_no_row {t : Transfer} :
    (∃ e, decode t = .error e) ↔ ∀ o : Opcode, ¬ o.selects t.c = true := by
  constructor
  · rintro ⟨e, he⟩ o ho
    cases he.symm.trans (decode_eq_ok_iff.2 ⟨o, ho, rfl⟩)
  · intro h
    cases hd : decode t with
    | error e => exact ⟨e, rfl⟩
    | ok i =>
      obtain ⟨o, ho, -⟩ := decode_eq_ok_iff.1 hd
      exact absurd ho (h o)

/-- R76: the two cases of an illegal word, and no other. -/
theorem decode_error_iff (t : Transfer) :
    (∃ e, decode t = .error e) ↔
      (t.c.op = 0x0#4 ∨ 0xA#4 ≤ t.c.op) ∨ ∃ o : Opcode, t.c.op = o.code ∧ t.c &&& o.mustBeZero ≠ 0#32 := by
  simp only [decode_error_iff_no_row, Opcode.selects_iff]
  constructor
  · intro hnone
    by_cases hop : t.c.op = 0x0#4 ∨ 0xA#4 ≤ t.c.op
    · exact .inl hop
    · obtain ⟨o, -, ho⟩ := (Opcode.exists_code_eq_iff _).2 hop
      exact .inr ⟨o, ho, fun hzero => hnone o ⟨ho, hzero⟩⟩
  · rintro (hop | ⟨o, ho, hset⟩) o' ⟨ho', hzero⟩
    · exact (Opcode.exists_code_eq_iff _).1 ⟨o', o'.mem_all, ho'⟩ hop
    · cases Opcode.code_injective (ho.symm.trans ho')
      exact hset hzero

/-- R77: only SET_ROW_BITS is built from `D`. -/
theorem Opcode.build_congr_data {o : Opcode} (ho : o ≠ .setRowBits) (c : CmdWord) (d d' : DataWord) :
    o.build ⟨c, d⟩ = o.build ⟨c, d'⟩ := by
  cases o with
  | setRowBits => exact absurd rfl ho
  | _ => rfl

theorem decode_congr_data {c : CmdWord} {d : DataWord} (d' : DataWord) {i : Instr}
    (hi : ∀ row data, i ≠ .setRowBits row data) (h : decode ⟨c, d⟩ = .ok i) : decode ⟨c, d'⟩ = .ok i := by
  obtain ⟨o, ho, rfl⟩ := decode_eq_ok_iff.1 h
  have hne : o ≠ .setRowBits := by
    rintro rfl
    exact hi _ _ rfl
  exact decode_eq_ok_iff.2 ⟨o, ho, Opcode.build_congr_data hne c d' d⟩

end Sys2Proof

namespace Sys2Proof.Machine

/-! ### The data operand (R77) -/

/-- The bytes of the modules below `n` are the operand's low `8 * n` bits (20_memory.md R54). -/
theorem rawByte_congr {d d' : DataWord} {n : Nat} (h : ∀ k, k < 8 * n → d.getLsbD k = d'.getLsbD k) {i : Nat}
    (hi : i < n) : rawByte d i = rawByte d' i := by
  ext j hj
  simp only [rawByte, BitVec.getElem_extractLsb']
  exact h (8 * i + j) (by omega)

theorem commandBody_setRowBits_congr (row : BitVec 8) {d d' : DataWord} {s : State}
    (h : ∀ k, k < 8 * s.chain → d.getLsbD k = d'.getLsbD k) :
    commandBody (.setRowBits row d) s = commandBody (.setRowBits row d') s := by
  have hbytes : (List.range s.chain).map (rawByte d) = (List.range s.chain).map (rawByte d') :=
    List.map_congr_left fun i hi => rawByte_congr h (List.mem_range.1 hi)
  simp only [commandBody, hbytes]

/-- Accepting runs the body in one state only: the one whose `CI` has advanced. -/
theorem accept_congr {s : State} {f g : State → State} (h : f s.advance = g s.advance) : accept s f = accept s g := by
  unfold accept
  rw [h]

/-- Settles O4: no other row is built from `D`, and of SET_ROW_BITS's operand only the bytes sent are read. -/
theorem dataOperandNotExamined : Obligations.DataOperandNotExamined := by
  refine ⟨fun c d d' i hi h => decode_congr_data d' hi h, fun row d d' s h => ?_⟩
  rw [exec_eq_accept, exec_eq_accept]
  exact accept_congr (commandBody_setRowBits_congr row (s := s.advance) h)

/-! ### An illegal word (R76) -/

theorem step_of_decode_error {s : State} {t : Transfer} {rest : List HostInput} {e : IllegalWord}
    (hport : s.port = .command t :: rest) (h : decode t = .error e) : step s = execIllegal { s with port := rest } := by
  simp only [step, hport, h]

theorem execIllegal_alive {s : State} (h : s.life = .alive) :
    execIllegal s = .next { s with ci := s.ci + 1, status := 0x03#8 } :=
  accept_alive h _

/-- Settles O5, by the two cases of `decode_error_iff`. -/
theorem illegalWordRule : Obligations.IllegalWordRule := by
  intro t reserved mustBeZeroSet
  refine ⟨decode_error_iff t, fun s rest halive hport hillegal => ?_⟩
  obtain ⟨e, he⟩ := (decode_error_iff t).2 hillegal
  exact (step_of_decode_error hport he).trans (execIllegal_alive halive)

/-! ### The assembler (R80, R81) -/

/-- Settles O9: each expansion is an equation of `expand`. -/
theorem pseudoInstructionsExpand : Obligations.PseudoInstructionsExpand :=
  ⟨fun _ _ => rfl, fun _ _ => rfl, fun _ => rfl, fun _ => rfl, rfl, rfl, rfl, rfl⟩

/-- Settles O6: the assembler run on each source line; the two illegal words fall under R76's two cases. -/
theorem encodingExamplesOfTheSpec : Obligations.EncodingExamplesOfTheSpec := by
  have hflush : ∃ e, decode ⟨0x40000001#32, 0#64⟩ = .error e :=
    (decode_error_iff _).2 (.inr ⟨.flush, by decide, by decide⟩)
  have hreserved : ∃ e, decode ⟨0xA0000000#32, 0#64⟩ = .error e :=
    (decode_error_iff _).2 (.inl (by decide))
  refine ⟨?_, ?_, ?_, ?_, ?_, ?_, ?_, ?_, ?_, ?_, ?_, ?_, ?_, hflush, ?_, hreserved⟩ <;> decide

end Sys2Proof.Machine

/-!
# The codec and REVERSE (40_codec.md)

`Reverse` is read bit by bit: bit `k` of `Reverse(b)` is bit `7 - k` of `b` (`reverseByte_getElem`). Each property of R102
compares two bytes at a bit `k`, and is then about the index `7 - k` alone.
-/

namespace Sys2Proof

/-- Only the row of REVERSE builds a REVERSE, and its operand is `BYTE` (R72, R75). -/
theorem Opcode.build_eq_reverse_iff {o : Opcode} {t : Transfer} {b : Byte} :
    o.build t = .reverse b ↔ o = .reverse ∧ b = t.c.byte := by
  cases o with
  | reverse => simp [Opcode.build, eq_comm]
  | _ => simp [Opcode.build]

/-- A transfer carries a REVERSE exactly when R73's row of REVERSE selects its word. -/
theorem decode_eq_reverse_iff {t : Transfer} {b : Byte} :
    decode t = .ok (.reverse b) ↔ Opcode.reverse.selects t.c = true ∧ b = t.c.byte := by
  rw [decode_eq_ok_iff]
  constructor
  · rintro ⟨o, ho, hbuild⟩
    obtain ⟨rfl, hb⟩ := Opcode.build_eq_reverse_iff.1 hbuild
    exact ⟨ho, hb⟩
  · rintro ⟨ho, hb⟩
    exact ⟨.reverse, ho, Opcode.build_eq_reverse_iff.2 ⟨rfl, hb⟩⟩

end Sys2Proof

namespace Sys2Proof.Machine

/-! ### The properties of `Reverse` (R100, R102) -/

theorem reverseByte_getElem (b : Byte) {k : Nat} (h : k < 8) : (reverseByte b)[k] = b[7 - k] := by
  simpa only [BitVec.getLsbD_eq_getElem h, BitVec.getLsbD_eq_getElem (show 7 - k < 8 by omega)]
    using reverseByte_getLsbD b h

/-- R102's involution: turning an index around twice gives it back. -/
theorem reverseByte_involutive : Function.Involutive reverseByte := by
  intro b
  ext k hk
  have hindex : 7 - (7 - k) = k := by omega
  simp only [reverseByte_getElem, hindex]

theorem reverseByte_not (b : Byte) : reverseByte (~~~b) = ~~~reverseByte b := by
  ext k hk
  simp only [reverseByte_getElem, BitVec.getElem_not]

theorem reverseByte_or (a b : Byte) : reverseByte (a ||| b) = reverseByte a ||| reverseByte b := by
  ext k hk
  simp only [reverseByte_getElem, BitVec.getElem_or]

theorem reverseByte_and (a b : Byte) : reverseByte (a &&& b) = reverseByte a &&& reverseByte b := by
  ext k hk
  simp only [reverseByte_getElem, BitVec.getElem_and]

/-- R102: bit 0 of both sides is the bit shifted in; bit `k + 1` of both is bit `7 - k` of `b`. -/
theorem reverseByte_ushiftRight_one (b : Byte) : reverseByte (b >>> 1) = reverseByte b <<< 1 := by
  ext k hk
  rw [reverseByte_getElem _ hk, BitVec.getElem_ushiftRight, BitVec.getElem_shiftLeft]
  cases k with
  | zero => simp
  | succ k =>
    have hindex : 1 + (7 - (k + 1)) = 7 - k := by omega
    rw [hindex, BitVec.getLsbD_eq_getElem (show 7 - k < 8 by omega)]
    simp [reverseByte_getElem]

/-- R102: 0xFF is the complement of 0x00. -/
theorem reverseByte_allOnes : reverseByte 0xFF#8 = 0xFF#8 := by
  calc
    reverseByte 0xFF#8 = ~~~reverseByte 0x00#8 := reverseByte_not 0x00#8
    _ = 0xFF#8 := by rw [reverseByte_zero]; rfl

/-- Settles O24: the properties of `Reverse`, each by its own lemma. -/
theorem codecProperties : Obligations.CodecProperties :=
  ⟨reverseByte_involutive, reverseByte_involutive.bijective, reverseByte_not, reverseByte_or, reverseByte_and,
    reverseByte_ushiftRight_one, reverseByte_zero, reverseByte_allOnes⟩

/-! ### REVERSE (R101) -/

/-- R101, while the block is alive: `RESULT` and `STATUS` are written and `CI` advances, nothing else. -/
theorem exec_reverse_alive (b : Byte) {s : State} (h : s.life = .alive) :
    exec (.reverse b) s = .next { s with ci := s.ci + 1, result := reverseByte b, status := 0x00#8 } := by
  rw [exec_eq_accept, accept_alive h]
  rfl

/-- Settles O25: the row of REVERSE in the opcode map, R76's second case at that row, and the body of the command. -/
theorem reverseCommandRule : Obligations.ReverseCommandRule := by
  refine ⟨fun t b => ?encoding, fun t hop hset => ?illegal, fun b s halive => ?effect⟩
  case encoding =>
    rw [decode_eq_reverse_iff, Opcode.selects, decide_eq_true_iff]
    rfl
  case illegal => exact (decode_error_iff t).2 (.inr ⟨.reverse, hop, hset⟩)
  case effect => exact ⟨reverseByte b, fun _ hk => reverseByte_getLsbD b hk, exec_reverse_alive b halive⟩

/-- Settles O23: R100 is how `Reverse` is read, and `Enc` is the identity when `REV = 0` (R24). -/
theorem reverseOfAByte : Obligations.ReverseOfAByte :=
  ⟨fun b _ hk => reverseByte_getLsbD b hk, reverseByte_involutive, fun b => ⟨enc_true b, enc_false b⟩⟩

end Sys2Proof.Machine

/-!
# The buffer mutation commands (41_buffer.md)

Each of SET_PIXEL, SET_ROW and SET_ROW_BITS is settled in three parts: its row of the opcode map (`decode_eq_ok_iff_row`),
R76's second case at that row (`decode_error_of_mustBeZero`), and its body. A body out of range is `State.done` alone; in
range it is one record update, and for SET_PIXEL and SET_ROW a lemma says what each cell then reads as.
-/

namespace Sys2Proof

/-- A row builds commands of its own row only. -/
@[simp] theorem Opcode.opcode_build (o : Opcode) (t : Transfer) : (o.build t).opcode = o := by cases o <;> rfl

/-- The only row that can give a command is the command's own, so a transfer carries the command exactly when R73's test
of that row passes and the row assembles these operands (R75). -/
theorem decode_eq_ok_iff_row {t : Transfer} {i : Instr} :
    decode t = .ok i ↔ t.c &&& i.opcode.mask = i.opcode.pattern ∧ i = i.opcode.build t := by
  have hselects : ∀ o : Opcode, o.selects t.c = true ↔ t.c &&& o.mask = o.pattern := fun _ => decide_eq_true_iff
  simp only [decode_eq_ok_iff, hselects]
  constructor
  · rintro ⟨o, ho, rfl⟩
    rw [o.opcode_build]
    exact ⟨ho, rfl⟩
  · rintro ⟨hrow, hbuild⟩
    exact ⟨i.opcode, hrow, hbuild.symm⟩

/-- R76's second case at one row. -/
theorem decode_error_of_mustBeZero {t : Transfer} (o : Opcode) (hop : t.c.op = o.code)
    (hset : t.c &&& o.mustBeZero ≠ 0#32) : ∃ e, decode t = .error e :=
  (decode_error_iff t).2 (.inr ⟨o, hop, hset⟩)

theorem decode_eq_setPixel_iff {t : Transfer} {row : BitVec 8} {col : BitVec 16} {on : Bool} :
    decode t = .ok (.setPixel row col on) ↔
      t.c &&& 0xFE000000#32 = 0x10000000#32 ∧ row = t.c.row ∧ col = t.c.col ∧ on = t.c.v :=
  decode_eq_ok_iff_row.trans (and_congr_right fun _ => Iff.of_eq (Instr.setPixel.injEq ..))

theorem decode_eq_setRow_iff {t : Transfer} {row : BitVec 8} {allOn : Bool} :
    decode t = .ok (.setRow row allOn) ↔
      t.c &&& 0xFE00FFFF#32 = 0x20000000#32 ∧ row = t.c.row ∧ allOn = t.c.v :=
  decode_eq_ok_iff_row.trans (and_congr_right fun _ => Iff.of_eq (Instr.setRow.injEq ..))

theorem decode_eq_setRowBits_iff {t : Transfer} {row : BitVec 8} {data : DataWord} :
    decode t = .ok (.setRowBits row data) ↔
      t.c &&& 0xFF00FFFF#32 = 0x30000000#32 ∧ row = t.c.row ∧ data = t.d :=
  decode_eq_ok_iff_row.trans (and_congr_right fun _ => Iff.of_eq (Instr.setRowBits.injEq ..))

end Sys2Proof

namespace Sys2Proof.Machine

/-- A command accepted: `CI` advances and the body runs (R31). -/
theorem exec_alive (i : Instr) {s : State} (h : s.life = .alive) : exec i s = .next (commandBody i s.advance) := by
  rw [exec_eq_accept, accept_alive h]

/-! ### SET_PIXEL (R110, R111) -/

theorem setPixel_outside {row : BitVec 8} {col : BitVec 16} (on : Bool) {s : State}
    (h : 8 ≤ row.toNat ∨ 8 * s.vlen ≤ col.toNat) : commandBody (.setPixel row col on) s = s.done :=
  if_pos h

theorem setPixel_inside {row : BitVec 8} {col : BitVec 16} (on : Bool) {s : State} (hrow : row.toNat < 8)
    (hcol : col.toNat < 8 * s.vlen) :
    commandBody (.setPixel row col on) s = (s.writePixel row.toNat col.toNat on).done :=
  if_neg (by omega)

/-- R110 writes one cell, the one of the pixel's row and module. -/
theorem State.readCell_writePixel (s : State) {row : Nat} (hrow : row < 8) (col : Nat) (on : Bool) {r : Nat} (hr : r < 8)
    (m : Nat) :
    (s.writePixel row col on).readCell r m =
      if r = row ∧ m = columnModule col then withBit (s.readCell r m) (columnBit col) on else s.readCell r m := by
  have hwrite := s.readCell_writeCell row (columnModule col)
    (withBit (s.readCell row (columnModule col)) (columnBit col) on) m hrow hr
  refine hwrite.trans ?_
  split
  case isTrue h =>
    obtain ⟨rfl, rfl⟩ := h
    rfl
  case isFalse => rfl

/-- Settles O27: the row of the opcode map, then the two branches of the body. -/
theorem setPixelRule : Obligations.SetPixelRule := by
  refine ⟨fun _ _ _ _ => decode_eq_setPixel_iff, fun _ => decode_error_of_mustBeZero .setPixel,
    fun row col on s halive hout => ?outside, fun row col on s halive hrow hcol => ?inside⟩
  case outside =>
    rw [exec_alive _ halive, setPixel_outside (s := s.advance) on hout]
    rfl
  case inside =>
    rw [exec_alive _ halive, setPixel_inside (s := s.advance) on hrow hcol]
    exact ⟨_, rfl, rfl, fun r m hr => s.advance.readCell_writePixel hrow col.toNat on hr m⟩

/-! ### SET_ROW (R112, R113) -/

theorem setRow_outside {row : BitVec 8} (allOn : Bool) (s : State) (hrow : 8 ≤ row.toNat) :
    commandBody (.setRow row allOn) s = s.done :=
  if_pos hrow

theorem setRow_inside {row : BitVec 8} (allOn : Bool) (s : State) (hrow : row.toNat < 8) :
    commandBody (.setRow row allOn) s = ((s.fillRow row.toNat (fillByte allOn)).setDirty row.toNat).done :=
  if_neg (by omega)

/-- A loop of SET_ROW over some modules: those modules of the row hold the byte. -/
theorem State.readCell_foldl_writeCell (s : State) {row : Nat} (hrow : row < 8) (v : Byte) (ms : List Nat) {r : Nat}
    (hr : r < 8) (m : Nat) :
    (ms.foldl (fun t m' => t.writeCell row m' v) s).readCell r m =
      if r = row ∧ m ∈ ms then v else s.readCell r m := by
  induction ms generalizing s with
  | nil => simp
  | cons m' ms ih =>
    rw [List.foldl_cons, ih, s.readCell_writeCell row m' v m hrow hr]
    rcases eq_or_ne r row with rfl | hne
    · by_cases hm : m ∈ ms <;> simp [hm]
    · simp [hne]

/-- R112's loop runs over the modules below `VLEN`. -/
theorem State.readCell_fillRow (s : State) {row : Nat} (hrow : row < 8) (v : Byte) {r : Nat} (hr : r < 8) (m : Nat) :
    (s.fillRow row v).readCell r m = if r = row ∧ m < s.vlen then v else s.readCell r m := by
  simp only [State.fillRow, s.readCell_foldl_writeCell hrow v _ hr, List.mem_range]

/-- All of the state but the buffer after a SET_ROW in range. -/
theorem setRow_frame {row : BitVec 8} (allOn : Bool) (s : State) (hrow : row.toNat < 8) :
    commandBody (.setRow row allOn) s =
      { s with
        vb := (commandBody (.setRow row allOn) s).vb
        dirty := s.dirty ||| (0x01#8 <<< row.toNat)
        status := 0x00#8 } := by
  obtain ⟨vb, hfill⟩ := s.fillRow_frame row.toNat (fillByte allOn)
  rw [setRow_inside allOn s hrow, hfill]
  rfl

theorem setRow_readCell {row : BitVec 8} (allOn : Bool) (s : State) (hrow : row.toNat < 8) {r : Nat} (hr : r < 8)
    (m : Nat) :
    (commandBody (.setRow row allOn) s).readCell r m =
      if r = row.toNat ∧ m < s.vlen then fillByte allOn else s.readCell r m := by
  rw [setRow_inside allOn s hrow]
  exact s.readCell_fillRow hrow (fillByte allOn) hr m

/-- R113: every bit of the byte SET_ROW writes is the value written. -/
theorem setRow_pixel {row : BitVec 8} (allOn : Bool) (s : State) (hrow : row.toNat < 8) {c : Nat} (hc : c < 8 * s.vlen) :
    (commandBody (.setRow row allOn) s).pixel row.toNat c = allOn := by
  have hmodule : columnModule c < s.vlen := Nat.div_lt_of_lt_mul hc
  have hbit : columnBit c < 8 := Nat.mod_lt c (by decide)
  rw [State.pixel, setRow_readCell allOn s hrow hrow, if_pos ⟨rfl, hmodule⟩, fillByte_getLsbD allOn hbit]

/-- Settles O29: the row of the opcode map, then the two branches of the body. -/
theorem setRowRule : Obligations.SetRowRule := by
  refine ⟨fun _ _ _ => decode_eq_setRow_iff, fun _ => decode_error_of_mustBeZero .setRow,
    fun row allOn s halive hout => ?outside, fun row allOn s halive hrow => ?inside⟩
  case outside =>
    rw [exec_alive _ halive, setRow_outside allOn s.advance hout]
    rfl
  case inside =>
    exact ⟨_, exec_alive _ halive, setRow_frame allOn s.advance hrow,
      fun _ m hr => setRow_readCell allOn s.advance hrow hr m⟩

/-- Settles O30: `setRow_isDirty` and `setRow_pixel`, after `CI` advanced. -/
theorem rowReadsBackAfterSetRow : Obligations.RowReadsBackAfterSetRow := by
  intro row allOn s halive hrow
  have hdirty : (commandBody (.setRow row allOn) s.advance).isDirty row.toNat = true := by
    simp [setRow_isDirty allOn s.advance hrow hrow]
  exact ⟨_, exec_alive _ halive, hdirty, fun _ hc => setRow_pixel allOn s.advance hrow hc⟩

/-! ### SET_ROW_BITS (R114) -/

theorem setRowBits_outside {row : BitVec 8} (data : DataWord) (s : State) (hrow : 8 ≤ row.toNat) :
    commandBody (.setRowBits row data) s = s.done :=
  if_pos hrow

/-- A frame whose bytes are given module by module: the modules are written from the tail to the head (R57, R130). -/
theorem frame_map_range (a : Byte) (n : Nat) (byte : Nat → Byte) :
    frame a ((List.range n).map byte) =
      [.sel] ++ (List.range n).reverse.map (fun i => .wr a (byte i)) ++ [.desel] := by
  simp [frame, ← List.map_reverse, Function.comp_def]

/-- In range SET_ROW_BITS is one frame of the operand's bytes as they are, tail first; the buffer and `DIRTY` stay. -/
theorem setRowBits_inside {row : BitVec 8} (data : DataWord) (s : State) (hrow : row.toNat < 8) :
    commandBody (.setRowBits row data) s =
      { s with
        status := 0x00#8
        events := s.events ++ [.sel] ++
          (List.range s.chain).reverse.map (fun i => .wr (wireAddr row.toNat) (rawByte data i)) ++ [.desel] } := by
  rw [commandBody, if_neg (by omega), State.rowWrite, frame_map_range]
  simp only [State.emit, State.done, statusOk, List.append_assoc]

/-- Settles O31: the row of the opcode map, then the two branches of the body. -/
theorem setRowBitsRule : Obligations.SetRowBitsRule := by
  refine ⟨fun _ _ _ => decode_eq_setRowBits_iff, fun _ => decode_error_of_mustBeZero .setRowBits,
    fun row data s halive hout => ?outside, fun row data s halive hrow => ?inside⟩
  case outside =>
    rw [exec_alive _ halive, setRowBits_outside data s.advance hout]
    rfl
  case inside =>
    rw [exec_alive _ halive, setRowBits_inside data s.advance hrow]
    rfl

end Sys2Proof.Machine

/-!
# FLUSH (42_flush.md)

The loop of R133 visits each row once, and a turn clears its own row's flag and no cell. So what a later turn finds is what
the command found, and the whole loop is one record update over the state before it (`flush_eq`). The dirty rows are
`rows.filter s.isDirty`: in ascending order, as many as `popcount(DIRTY)`.
-/

namespace Sys2Proof

/-- A row's `OP` on a word the row does not select: the word is illegal. -/
theorem decode_error_of_not_selects {t : Transfer} (o : Opcode) (hop : t.c.op = o.code) (h : ¬ o.selects t.c = true) :
    ∃ e, decode t = .error e :=
  decode_error_of_mustBeZero o hop fun hzero => h ((o.selects_iff t.c).2 ⟨hop, hzero⟩)

/-- FLUSH has no operand, so its row's mask is every bit and it has one word (R132). -/
theorem Opcode.flush_selects_iff (c : CmdWord) : Opcode.flush.selects c = true ↔ c = 0x40000000#32 := by
  have hmask : c &&& Opcode.flush.mask = c := BitVec.and_allOnes
  rw [Opcode.selects, hmask, decide_eq_true_iff]
  rfl

theorem decode_eq_flush_iff {t : Transfer} : decode t = .ok .flush ↔ t.c = 0x40000000#32 := by
  rw [← Opcode.flush_selects_iff, Opcode.selects, decide_eq_true_iff]
  exact decode_eq_ok_iff_row.trans (and_iff_left rfl)

end Sys2Proof

namespace Sys2Proof.Machine

/-! ### One turn of the loop -/

@[simp] theorem State.flushRow_vb (s : State) (r : Nat) : (s.flushRow r).vb = s.vb := by
  unfold State.flushRow
  split <;> rfl

@[simp] theorem State.flushRow_chain (s : State) (r : Nat) : (s.flushRow r).chain = s.chain := by
  unfold State.flushRow
  split <;> rfl

@[simp] theorem State.flushRow_rev (s : State) (r : Nat) : (s.flushRow r).rev = s.rev := by
  unfold State.flushRow
  split <;> rfl

theorem State.flushRow_events (s : State) (r : Nat) :
    (s.flushRow r).events = s.events ++ if s.isDirty r then frame (wireAddr r) (s.proj r) else [] := by
  unfold State.flushRow
  split <;> simp

@[simp] theorem State.proj_flushRow (s : State) (r r' : Nat) : (s.flushRow r).proj r' = s.proj r' :=
  State.proj_congr (s.flushRow_vb r) (s.flushRow_chain r) (s.flushRow_rev r) r'

/-- A turn clears its own row's flag only. -/
theorem State.isDirty_flushRow_of_ne (s : State) {r r' : Nat} (hr : r < 8) (hr' : r' < 8) (hne : r' ≠ r) :
    (s.flushRow r).isDirty r' = s.isDirty r' := by
  rw [State.isDirty_congr (s.flushRow_dirty r), s.isDirty_clearDirty hr hr']
  simp [hne]

/-! ### The whole loop -/

/-- What the turns of the rows `rs` send: the projection of each one that is dirty, in the order of `rs` (R133). -/
def State.flushFrames (s : State) (rs : List Nat) : List Event :=
  (rs.filter s.isDirty).flatMap fun r => frame (wireAddr r) (s.proj r)

theorem State.flushFrames_cons (s : State) (r : Nat) (rs : List Nat) :
    s.flushFrames (r :: rs) = (if s.isDirty r then frame (wireAddr r) (s.proj r) else []) ++ s.flushFrames rs := by
  unfold State.flushFrames
  cases hdirty : s.isDirty r <;> simp [hdirty]

/-- The turn of one row does not change what the turns of other rows send. -/
theorem State.flushFrames_flushRow (s : State) {r : Nat} (hr : r < 8) {rs : List Nat} (hrs : ∀ r' ∈ rs, r' < 8)
    (hnot : r ∉ rs) : (s.flushRow r).flushFrames rs = s.flushFrames rs := by
  have hfilter : rs.filter (s.flushRow r).isDirty = rs.filter s.isDirty :=
    List.filter_congr fun r' hmem => s.isDirty_flushRow_of_ne hr (hrs r' hmem) (ne_of_mem_of_not_mem hmem hnot)
  simp only [State.flushFrames, hfilter, State.proj_flushRow]

/-- A loop over distinct rows sends those that were dirty before the loop. -/
theorem events_foldl_flushRow {rs : List Nat} (hrs : ∀ r ∈ rs, r < 8) (hnodup : rs.Nodup) (s : State) :
    (rs.foldl State.flushRow s).events = s.events ++ s.flushFrames rs := by
  induction rs generalizing s with
  | nil => simp [State.flushFrames]
  | cons r rs ih =>
    obtain ⟨hr, hrest⟩ := List.forall_mem_cons.1 hrs
    obtain ⟨hnot, hnodup⟩ := List.nodup_cons.1 hnodup
    rw [List.foldl_cons, ih hrest hnodup, s.flushFrames_flushRow hr hrest hnot, s.flushRow_events, s.flushFrames_cons,
      List.append_assoc]

/-- FLUSH as one update of the state it began in (R133). -/
theorem flush_eq (s : State) :
    commandBody .flush s =
      { s with status := 0x00#8, dirty := 0x00#8, events := s.events ++ s.flushFrames rows } := by
  obtain ⟨dirty, es, hflush⟩ := flushRows_frame s
  have hdirty : dirty = 0x00#8 := by simpa only [hflush] using flushRows_dirty s
  have hevents : es = s.events ++ s.flushFrames rows := by
    simpa only [hflush] using events_foldl_flushRow (fun _ => mem_rows.1) (by decide) s
  rw [commandBody, hflush, hdirty, hevents]
  rfl

theorem exec_flush_alive {s : State} (h : s.life = .alive) :
    exec .flush s =
      .next { s with
        ci := s.ci + 1
        status := 0x00#8
        dirty := 0x00#8
        events := s.events ++ s.flushFrames rows } := by
  rw [exec_alive _ h, flush_eq]
  rfl

/-- Settles O34: the row of the opcode map, and the body with each frame written out module by module, tail first. -/
theorem flushRule : Obligations.FlushRule := by
  refine ⟨fun _ => decode_eq_flush_iff, fun t hop hne => ?illegal, fun s halive => ?effect⟩
  case illegal => exact decode_error_of_not_selects .flush hop (mt (Opcode.flush_selects_iff t.c).1 hne)
  case effect =>
    rw [exec_flush_alive halive]
    simp only [State.flushFrames, State.proj, frame_map_range]
    rfl

/-! ### The frames counted (R135) -/

/-- Frames of `n` writes each: `n` times as many writes as frames. -/
theorem countWrites_flatMap_frame (addr : Nat → Byte) {bytes : Nat → List Byte} {n : Nat}
    (hbytes : ∀ r, (bytes r).length = n) (rs : List Nat) :
    countWrites (rs.flatMap fun r => frame (addr r) (bytes r)) = rs.length * n := by
  induction rs with
  | nil => simp [countWrites]
  | cons r rs ih =>
    rw [List.flatMap_cons, countWrites_append, countWrites_frame, hbytes, ih, List.length_cons, Nat.succ_mul, Nat.add_comm]

theorem State.length_filter_isDirty (s : State) : (rows.filter s.isDirty).length = s.dirtyCount :=
  List.countP_eq_length_filter.symm

theorem State.countWrites_flushFrames (s : State) : countWrites (s.flushFrames rows) = s.dirtyCount * s.chain := by
  rw [State.flushFrames, countWrites_flatMap_frame wireAddr s.proj_length, s.length_filter_isDirty]

/-- Settles O35: the rows sent are the dirty ones among R132's ascending rows, each with its projection. -/
theorem flushProperties : Obligations.FlushProperties := by
  intro s halive
  have hascending : (rows.filter s.isDirty).Pairwise (· < ·) := List.Pairwise.filter _ (by decide)
  have hsent : ∀ r, r ∈ rows.filter s.isDirty ↔ r < 8 ∧ s.isDirty r = true := by simp [mem_rows]
  have hcount : countWrites (s.events ++ s.flushFrames rows) = countWrites s.events + s.dirtyCount * s.chain := by
    rw [countWrites_append, s.countWrites_flushFrames]
  exact ⟨_, rows.filter s.isDirty, s.proj, exec_flush_alive halive, rfl, rfl, hascending, s.length_filter_isDirty, hsent,
    s.proj_length, rfl, hcount⟩

/-! ### Who clears a flag (R134) -/

/-- While alive no command but FLUSH clears a flag: each of R26's writers only adds flags. -/
theorem isDirty_of_exec_ne_flush {i : Instr} {s t : State} (hi : i ≠ .flush) (halive : s.life = .alive)
    (h : exec i s = .next t) {r : Nat} (hr : r < 8) (hdirty : s.isDirty r = true) : t.isDirty r = true := by
  have hkept : t.dirty = s.dirty → t.isDirty r = true := fun heq => (State.isDirty_congr heq r).trans hdirty
  have hwrites := writersOfDirty i s t halive h
  cases i with
  | setPixel row col on =>
    obtain ⟨hin, hout⟩ := hwrites
    by_cases hrange : row.toNat < 8 ∧ col.toNat < 8 * s.vlen
    · rw [hin hrange r hr, hdirty, Bool.or_true]
    · exact hkept (hout hrange)
  | setRow row allOn =>
    obtain ⟨hin, hout⟩ := hwrites
    by_cases hrow : row.toNat < 8
    · rw [hin hrow r hr, hdirty, Bool.or_true]
    · exact hkept (hout (Nat.le_of_not_lt hrow))
  | setVlen n =>
    obtain ⟨hin, hout⟩ := hwrites
    by_cases hrange : s.chain ≤ n.toNat ∧ n.toNat ≤ s.params.vmax
    · exact hin hrange r hr
    · exact hkept (hout hrange)
  | flush => exact absurd rfl hi
  | setRowBits row data => exact hkept hwrites
  | scroll wrap => exact hkept hwrites
  | setIntensity level => exact hkept hwrites
  | shutdown => exact hkept hwrites
  | reverse b => exact hkept hwrites

/-- Settles O39: FLUSH visits every row; of the other commands a refused one changes the mark alone (R202), and an accepted
one adds flags at most. -/
theorem onlyFlushClearsADirtyFlag : Obligations.OnlyFlushClearsADirtyFlag := by
  refine ⟨fun s t halive h => ?flush, fun i s t hi h r hr hdirty => ?other⟩
  case flush =>
    cases (exec_flush_alive halive).symm.trans h
    rfl
  case other =>
    obtain ⟨-, rfl⟩ | ⟨halive, -⟩ := exec_cases h
    · exact hdirty
    · exact isDirty_of_exec_ne_flush hi halive h hr hdirty

end Sys2Proof.Machine

/-!
# SCROLL (43_scroll.md)

The inner loop of R150 is solved once, for a loop over the modules below any bound (`readAt_foldl_shiftModule`): each cell is
shifted right and takes one bit (`shiftIn`), which module `i` gets from its neighbour `i + 1` as it was before the loop. Each
turn of the outer loop writes its own row alone, so every row is shifted from what SCROLL found and sent as SCROLL leaves it
(`scroll_eq`, `scroll_readCell`). In pixels a row moves one column towards column 0 (`scroll_pixel`), and R156 and R158
follow from that.
-/

namespace Sys2Proof

/-- The row of SCROLL: one operand, `V` (R72, R75). -/
theorem decode_eq_scroll_iff {t : Transfer} {wrap : Bool} :
    decode t = .ok (.scroll wrap) ↔ t.c &&& 0xFEFFFFFF#32 = 0x50000000#32 ∧ wrap = t.c.v :=
  decode_eq_ok_iff_row.trans (and_congr_right fun _ => Iff.of_eq (Instr.scroll.injEq ..))

theorem decode_encode_scroll : ∀ wrap : Bool, decode (encode (.scroll wrap)) = .ok (.scroll wrap) := by decide

end Sys2Proof

namespace Sys2Proof.Machine

/-! ### One byte -/

/-- Bit 7 of a byte, and zeros: the two values of R150's `carry`. -/
def carryByte (c : Bool) : Byte := if c then 0x80#8 else 0x00#8

/-- A byte shifted right by one, with `c` as its new bit 7. -/
def shiftIn (b : Byte) (c : Bool) : Byte := (b >>> 1) ||| carryByte c

theorem carryByte_eq_shiftLeft : ∀ c : Bool, carryByte c = (BitVec.ofBool c).setWidth 8 <<< 7 := by decide

theorem carryByte_or : ∀ c d : Bool, carryByte c ||| carryByte d = carryByte (c || d) := by decide

theorem shiftIn_false (b : Byte) : shiftIn b false = b >>> 1 := BitVec.or_zero

theorem carryByte_getLsbD (c : Bool) {k : Nat} (hk : k < 8) : (carryByte c).getLsbD k = (decide (k = 7) && c) := by
  revert c
  interval_cases k <;> decide

/-- Bit 7 is the bit shifted in, every other bit its upper neighbour. -/
theorem shiftIn_getLsbD (b : Byte) (c : Bool) {k : Nat} (hk : k < 8) :
    (shiftIn b c).getLsbD k = if k = 7 then c else b.getLsbD (k + 1) := by
  rw [shiftIn, BitVec.getLsbD_or, BitVec.getLsbD_ushiftRight, carryByte_getLsbD c hk, Nat.add_comm 1 k]
  by_cases h7 : k = 7
  · subst h7
    simp
  · simp [h7]

/-! ### One row (R150, the inner loop) -/

/-- The bit module `i` of a row takes: bit 0 of the next higher module, at the tail its own bit 0 with `wrap`. -/
def bitShiftedIn (vlen : Nat) (wrap : Bool) (row : Nat → Byte) (i : Nat) : Bool :=
  if i + 1 < vlen then (row (i + 1)).getLsbD 0 else wrap && (row i).getLsbD 0

/-- Module `i` of a row after R150's inner loop (R152); modules at or beyond `VLEN` are as they were. -/
def shiftedCell (vlen : Nat) (wrap : Bool) (row : Nat → Byte) (i : Nat) : Byte :=
  if i < vlen then shiftIn (row i) (bitShiftedIn vlen wrap row i) else row i

/-- One turn of the inner loop: the self-wrap and the carry are two sources of the one bit shifted in. -/
theorem shiftModule_carryByte (vlen : Nat) (wrap : Bool) (r : Nat) (vb : Memory) (c : Bool) (i : Nat) :
    shiftModule vlen wrap r ⟨vb, carryByte c⟩ i =
      ⟨vb.writeAt (cellAddr r i) (shiftIn (vb.readAt (cellAddr r i))
          ((decide (i + 1 = vlen) && wrap && (vb.readAt (cellAddr r i)).getLsbD 0) || c)),
        carryByte ((vb.readAt (cellAddr r i)).getLsbD 0)⟩ := by
  have hwrapped : ∀ b : Byte,
      (if i + 1 = vlen ∧ wrap = true ∧ b.getLsbD 0 = true then (b >>> 1) ||| 0x80#8 else b >>> 1) =
        (b >>> 1) ||| carryByte (decide (i + 1 = vlen) && wrap && b.getLsbD 0) := by
    intro b
    simp only [carryByte, Bool.and_eq_true, decide_eq_true_eq, and_assoc]
    split
    · rfl
    · exact BitVec.or_zero.symm
  simp only [shiftModule, hwrapped, shiftIn, BitVec.or_assoc, carryByte_or]
  rfl

/-- The inner loop over the modules below `n`, entered with the carry `c`: each module takes bit 0 of the next higher one as
it was before the loop, and the first one visited takes `c` or, at the tail, wraps. -/
theorem readAt_foldl_shiftModule {vlen : Nat} (wrap : Bool) {r : Nat} (hr : r < 8) {n : Nat} (hn : n ≤ vlen) (vb : Memory)
    (c : Bool) (i : Nat) :
    ((List.range n).reverse.foldl (shiftModule vlen wrap r) ⟨vb, carryByte c⟩).vb.readAt (cellAddr r i) =
      if i < n then
        shiftIn (vb.readAt (cellAddr r i))
          (if i + 1 < n then (vb.readAt (cellAddr r (i + 1))).getLsbD 0
            else (decide (n = vlen) && wrap && (vb.readAt (cellAddr r i)).getLsbD 0) || c)
      else vb.readAt (cellAddr r i) := by
  induction n generalizing vb c with
  | zero => rfl
  | succ n ih =>
    have hnotTail : n ≠ vlen := by omega
    rw [List.range_succ, List.reverse_concat, List.foldl_cons, shiftModule_carryByte, ih (by omega)]
    simp only [Memory.readAt_writeAt_cell _ _ _ _ hr hr, true_and, hnotTail, decide_false, Bool.false_and, Bool.false_or]
    rcases Nat.lt_trichotomy i n with hlt | rfl | hgt
    · have hne : i ≠ n := by omega
      have hlt' : i < n + 1 := by omega
      rw [if_pos hlt, if_neg hne, if_pos hlt', if_pos (Nat.succ_lt_succ hlt)]
      by_cases hnext : i + 1 < n
      · rw [if_pos hnext, if_neg hnext.ne]
      · have hlast : i + 1 = n := by omega
        rw [if_neg hnext, hlast]
    · simp
    · have hne : i ≠ n := by omega
      rw [if_neg (by omega), if_neg hne, if_neg (by omega)]

/-- R150's inner loop is R152's closed form. -/
theorem readAt_shiftRow (vlen : Nat) (wrap : Bool) (vb : Memory) {r : Nat} (hr : r < 8) (i : Nat) :
    (shiftRow vlen wrap vb r).readAt (cellAddr r i) =
      shiftedCell vlen wrap (fun m => vb.readAt (cellAddr r m)) i := by
  have hloop := readAt_foldl_shiftModule (vlen := vlen) wrap hr le_rfl vb false i
  simp only [decide_true, Bool.true_and, Bool.or_false] at hloop
  exact hloop

/-! ### The rows (R150, the outer loop) -/

@[simp] theorem State.scrollRow_vlen (wrap : Bool) (s : State) (r : Nat) : (s.scrollRow wrap r).vlen = s.vlen := rfl
@[simp] theorem State.scrollRow_chain (wrap : Bool) (s : State) (r : Nat) : (s.scrollRow wrap r).chain = s.chain := rfl
@[simp] theorem State.scrollRow_rev (wrap : Bool) (s : State) (r : Nat) : (s.scrollRow wrap r).rev = s.rev := rfl

/-- A turn sends the row as the turn leaves it. -/
theorem State.scrollRow_events (wrap : Bool) (s : State) (r : Nat) :
    (s.scrollRow wrap r).events = s.events ++ frame (wireAddr r) ((s.scrollRow wrap r).proj r) := rfl

theorem State.readCell_scrollRow (wrap : Bool) (s : State) {r : Nat} (hr : r < 8) (i : Nat) :
    (s.scrollRow wrap r).readCell r i = shiftedCell s.vlen wrap (s.readCell r) i :=
  readAt_shiftRow s.vlen wrap s.vb hr i

theorem State.readCell_scrollRow_of_ne (wrap : Bool) (s : State) {row r : Nat} (hrow : row < 8) (hr : r < 8)
    (hne : r ≠ row) (i : Nat) : (s.scrollRow wrap row).readCell r i = s.readCell r i :=
  readAt_shiftRow_of_ne s.vlen wrap s.vb hrow hr hne i

/-- The loop over some rows leaves the cells of every other row. -/
theorem readCell_foldl_scrollRow_of_notMem (wrap : Bool) {rs : List Nat} (hrs : ∀ r ∈ rs, r < 8) {r : Nat} (hr : r < 8)
    (hnot : r ∉ rs) (s : State) (i : Nat) : (rs.foldl (State.scrollRow wrap) s).readCell r i = s.readCell r i := by
  refine List.foldlRecOn (motive := fun (t : State) => t.readCell r i = s.readCell r i) _ _ rfl fun t ht row hrow => ?_
  rw [t.readCell_scrollRow_of_ne wrap (hrs row hrow) hr (ne_of_mem_of_not_mem hrow hnot).symm, ht]

/-- The loop over distinct rows shifts each of them once. -/
theorem readCell_foldl_scrollRow (wrap : Bool) {rs : List Nat} (hrs : ∀ r ∈ rs, r < 8) (hnodup : rs.Nodup) {r : Nat}
    (hr : r ∈ rs) (s : State) (i : Nat) :
    (rs.foldl (State.scrollRow wrap) s).readCell r i = shiftedCell s.vlen wrap (s.readCell r) i := by
  induction rs generalizing s with
  | nil => cases hr
  | cons row rs ih =>
    obtain ⟨hrow, hrest⟩ := List.forall_mem_cons.1 hrs
    obtain ⟨hnot, hnodup⟩ := List.nodup_cons.1 hnodup
    rw [List.foldl_cons]
    rcases List.mem_cons.1 hr with rfl | hmem
    · rw [readCell_foldl_scrollRow_of_notMem wrap hrest hrow hnot, s.readCell_scrollRow wrap hrow]
    · have hcells : (s.scrollRow wrap row).readCell r = s.readCell r :=
        funext (s.readCell_scrollRow_of_ne wrap hrow (hrest r hmem) (ne_of_mem_of_not_mem hmem hnot))
      rw [ih hrest hnodup hmem, hcells, s.scrollRow_vlen]

/-- The turn of one row leaves what any other row would send. -/
theorem State.proj_scrollRow_of_ne (wrap : Bool) (s : State) {row r : Nat} (hrow : row < 8) (hr : r < 8) (hne : r ≠ row) :
    (s.scrollRow wrap row).proj r = s.proj r := by
  simp only [State.proj, s.readCell_scrollRow_of_ne wrap hrow hr hne, State.scrollRow_chain, State.scrollRow_rev]

theorem proj_foldl_scrollRow_of_notMem (wrap : Bool) {rs : List Nat} (hrs : ∀ r ∈ rs, r < 8) {r : Nat} (hr : r < 8)
    (hnot : r ∉ rs) (s : State) : (rs.foldl (State.scrollRow wrap) s).proj r = s.proj r := by
  refine List.foldlRecOn (motive := fun (t : State) => t.proj r = s.proj r) _ _ rfl fun t ht row hrow => ?_
  rw [t.proj_scrollRow_of_ne wrap (hrs row hrow) hr (ne_of_mem_of_not_mem hrow hnot).symm, ht]

/-- The loop over distinct rows sends each as the loop leaves it: no later turn changes a row already sent. -/
theorem events_foldl_scrollRow (wrap : Bool) {rs : List Nat} (hrs : ∀ r ∈ rs, r < 8) (hnodup : rs.Nodup) (s : State) :
    (rs.foldl (State.scrollRow wrap) s).events =
      s.events ++ rs.flatMap fun r => frame (wireAddr r) ((rs.foldl (State.scrollRow wrap) s).proj r) := by
  induction rs generalizing s with
  | nil => simp
  | cons r rs ih =>
    obtain ⟨hr, hrest⟩ := List.forall_mem_cons.1 hrs
    obtain ⟨hnot, hnodup⟩ := List.nodup_cons.1 hnodup
    rw [List.foldl_cons, ih hrest hnodup, s.scrollRow_events, List.flatMap_cons,
      proj_foldl_scrollRow_of_notMem wrap hrest hr hnot, List.append_assoc]

/-! ### The command -/

/-- R151 and R159: SCROLL writes the buffer, `STATUS` and the stream, and sends every row as it leaves it. -/
theorem scroll_eq (wrap : Bool) (s : State) :
    commandBody (.scroll wrap) s =
      { s with
        vb := (commandBody (.scroll wrap) s).vb
        status := 0x00#8
        events := s.events ++ rows.flatMap fun r => frame (wireAddr r) ((commandBody (.scroll wrap) s).proj r) } := by
  have hevents : (commandBody (.scroll wrap) s).events =
      s.events ++ rows.flatMap fun r => frame (wireAddr r) ((commandBody (.scroll wrap) s).proj r) :=
    events_foldl_scrollRow wrap (fun _ => mem_rows.1) (by decide) s
  obtain ⟨vb, es, hscroll⟩ := scrollRows_frame wrap s
  rw [← hevents, commandBody, hscroll]
  rfl

/-- R150 and R152: every cell of every row after SCROLL. -/
theorem scroll_readCell (wrap : Bool) (s : State) {r : Nat} (hr : r < 8) (i : Nat) :
    (commandBody (.scroll wrap) s).readCell r i = shiftedCell s.vlen wrap (s.readCell r) i :=
  readCell_foldl_scrollRow wrap (fun _ => mem_rows.1) (by decide) (mem_rows.2 hr) s i

/-- R152 below the tail. -/
theorem scroll_readCell_belowTail (wrap : Bool) (s : State) {r i : Nat} (hr : r < 8) (hi : i + 1 < s.vlen) :
    (commandBody (.scroll wrap) s).readCell r i = shiftIn (s.readCell r i) ((s.readCell r (i + 1)).getLsbD 0) := by
  rw [scroll_readCell wrap s hr, shiftedCell, if_pos (Nat.lt_of_succ_lt hi), bitShiftedIn, if_pos hi]

/-- R152 at the tail. -/
theorem scroll_readCell_tail (wrap : Bool) (s : State) {r i : Nat} (hr : r < 8) (hi : i + 1 = s.vlen) :
    (commandBody (.scroll wrap) s).readCell r i = shiftIn (s.readCell r i) (wrap && (s.readCell r i).getLsbD 0) := by
  rw [scroll_readCell wrap s hr, shiftedCell, if_pos (by omega), bitShiftedIn, if_neg (by omega)]

/-- R159: eight frames of `CHAIN` writes each. -/
theorem scroll_countWrites (wrap : Bool) (s : State) :
    countWrites (commandBody (.scroll wrap) s).events = countWrites s.events + 8 * s.chain := by
  have hchain : (commandBody (.scroll wrap) s).chain = s.chain := (commandBody_keeps (.scroll wrap) s).chain
  have hlength : ∀ r, ((commandBody (.scroll wrap) s).proj r).length = s.chain := fun r =>
    (State.proj_length _ r).trans hchain
  rw [scroll_eq]
  exact (countWrites_append ..).trans (congrArg _ (countWrites_flatMap_frame wireAddr hlength rows))

/-- Settles O40: the row of the opcode map, R76's second case at that row, and the body with each frame written out. -/
theorem scrollRule : Obligations.ScrollRule := by
  refine ⟨fun _ _ => decode_eq_scroll_iff, fun _ => decode_error_of_mustBeZero .scroll, fun wrap s halive => ?effect⟩
  refine ⟨_, exec_alive _ halive, ?frame, scroll_countWrites wrap s.advance,
    fun r i hr => scroll_readCell wrap s.advance hr i⟩
  have hframe := scroll_eq wrap s.advance
  have hkeeps := commandBody_keeps (.scroll wrap) s.advance
  simp only [State.proj, hkeeps.chain, hkeeps.rev, frame_map_range] at hframe
  exact hframe

/-! ### Pixels (R152) -/

/-- R23: the pixel of a module's bit. -/
theorem State.pixel_eq (s : State) (r m : Nat) {k : Nat} (hk : k < 8) :
    s.pixel r (8 * m + k) = (s.readCell r m).getLsbD k := by
  have hmodule : columnModule (8 * m + k) = m := by unfold columnModule; omega
  have hbit : columnBit (8 * m + k) = k := by unfold columnBit; omega
  rw [State.pixel, hmodule, hbit]

/-- R152: every pixel takes the one at the next column, across a module boundary too, and the last column takes, with `wrap`,
the pixel of the tail module's first column. -/
theorem scroll_pixel (wrap : Bool) (s : State) {r c : Nat} (hr : r < 8) (hc : c < 8 * s.vlen) :
    (commandBody (.scroll wrap) s).pixel r c =
      if c + 1 < 8 * s.vlen then s.pixel r (c + 1) else wrap && s.pixel r (8 * (s.vlen - 1)) := by
  obtain ⟨m, k, hk, rfl⟩ : ∃ m k, k < 8 ∧ c = 8 * m + k := ⟨c / 8, c % 8, by omega, by omega⟩
  have hm : m < s.vlen := by omega
  rw [State.pixel_eq _ r m hk, scroll_readCell wrap s hr, shiftedCell, if_pos hm, shiftIn_getLsbD _ _ hk]
  by_cases h7 : k = 7
  · subst h7
    have hcolumn : 8 * m + 7 + 1 = 8 * (m + 1) := by omega
    rw [if_pos rfl, bitShiftedIn, hcolumn]
    by_cases hnext : m + 1 < s.vlen
    · rw [if_pos hnext, if_pos (by omega)]
      exact (s.pixel_eq r (m + 1) (by decide)).symm
    · have htail : s.vlen - 1 = m := by omega
      rw [if_neg hnext, if_neg (by omega), htail]
      exact congrArg _ (s.pixel_eq r m (by decide)).symm
  · rw [if_neg h7, if_pos (by omega)]
    exact (s.pixel_eq r m (by omega)).symm

/-- Settles O41: `scroll_readCell` and `scroll_pixel`, below the tail and at it. -/
theorem scrollClosedForm : Obligations.ScrollClosedForm := by
  intro wrap s halive
  refine ⟨_, exec_alive _ halive, fun r i hr hi => ?cell, fun r hr hv => ?tailCell, fun r c hr hc => ?pixel,
    fun r hr hv => ?lastPixel⟩
  case cell =>
    rw [← carryByte_eq_shiftLeft]
    exact scroll_readCell_belowTail wrap s.advance hr hi
  case tailCell =>
    rw [← carryByte_eq_shiftLeft]
    exact scroll_readCell_tail wrap s.advance hr (Nat.sub_add_cancel hv)
  case pixel => exact (scroll_pixel wrap s.advance hr (Nat.lt_of_succ_lt hc)).trans (if_pos hc)
  case lastPixel =>
    have hlast : 8 * s.vlen - 1 + 1 = 8 * s.vlen := by omega
    exact (scroll_pixel wrap s.advance hr (Nat.lt_of_succ_le hlast.le)).trans (if_neg hlast.not_lt)

/-! ### A single module (R156) -/

/-- With one module the head is the tail, and its eight columns rotate by one. -/
theorem scroll_pixel_single {s : State} (hv : s.vlen = 1) {r c : Nat} (hr : r < 8) (hc : c < 8) :
    (commandBody (.scroll true) s).pixel r c = s.pixel r ((c + 1) % 8) := by
  rw [scroll_pixel true s hr (by omega), hv]
  by_cases hnext : c + 1 < 8
  · rw [if_pos hnext, Nat.mod_eq_of_lt hnext]
  · have hlast : c = 7 := by omega
    subst hlast
    rfl

theorem step_of_decode_ok {s : State} {t : Transfer} {rest : List HostInput} {i : Instr}
    (hport : s.port = .command t :: rest) (hdec : decode t = .ok i) : step s = exec i { s with port := rest } := by
  simp only [step, hport, hdec]

theorem run_succ_of_step {s u : State} (h : step s = .next u) (n : Nat) :
    Sys2Proof.core.run (n + 1) s = Sys2Proof.core.run n u := by
  have hcore : Sys2Proof.core.step s = .next u := h
  simp only [Host.Core.run, hcore]

/-- One step over a SCROLL with wrap on the port of a block with one module: such a block again, its columns rotated. -/
theorem step_scroll_single {s : State} {rest : List HostInput} (halive : s.life = .alive) (hv : s.vlen = 1)
    (hport : s.port = .command (encode (.scroll true)) :: rest) :
    ∃ u, step s = .next u ∧ u.life = .alive ∧ u.vlen = 1 ∧ u.port = rest ∧
      ∀ r c, r < 8 → c < 8 → u.pixel r c = s.pixel r ((c + 1) % 8) := by
  have hstep := step_of_decode_ok hport (decode_encode_scroll true)
  have heq := scroll_eq true (State.advance { s with port := rest })
  exact ⟨_, hstep.trans (exec_alive _ halive), (congrArg State.life heq).trans halive,
    (congrArg State.vlen heq).trans hv, congrArg State.port heq,
    fun _ _ hr hc => scroll_pixel_single (s := State.advance { s with port := rest }) hv hr hc⟩

/-- A run over `n` SCROLLs with wrap rotates the eight columns of each row by `n`. -/
theorem run_scrolls_pixel (n : Nat) {s : State} (halive : s.life = .alive) (hv : s.vlen = 1)
    (hport : s.port = List.replicate n (.command (encode (.scroll true)))) :
    ∃ t, Sys2Proof.core.run n s = .next t ∧ ∀ r c, r < 8 → c < 8 → t.pixel r c = s.pixel r ((c + n) % 8) := by
  induction n generalizing s with
  | zero => exact ⟨s, rfl, fun r c _ hc => by rw [Nat.add_zero, Nat.mod_eq_of_lt hc]⟩
  | succ n ih =>
    obtain ⟨u, hstep, hulife, huvlen, huport, hone⟩ := step_scroll_single halive hv hport
    obtain ⟨t, hrun, hrest⟩ := ih hulife huvlen huport
    refine ⟨t, (run_succ_of_step hstep n).trans hrun, fun r c hr hc => ?_⟩
    have hcol : (c + n) % 8 < 8 := Nat.mod_lt _ (by decide)
    calc
      t.pixel r c = u.pixel r ((c + n) % 8) := hrest r c hr hc
      _ = s.pixel r (((c + n) % 8 + 1) % 8) := hone r _ hr hcol
      _ = s.pixel r ((c + (n + 1)) % 8) := by rw [Nat.mod_add_mod, Nat.add_assoc]

/-- Settles O42: one SCROLL in cells, and eight of them as a rotation by eight columns. -/
theorem singleModuleScrollRotates : Obligations.SingleModuleScrollRotates := by
  refine ⟨fun s halive hv => ⟨_, exec_alive _ halive, fun r hr => ?rotate⟩,
    fun s halive hv => ⟨_, exec_alive _ halive, fun r hr => ?shift⟩, fun s halive hv hport => ?eight⟩
  case rotate =>
    rw [← carryByte_eq_shiftLeft]
    exact scroll_readCell_tail true s.advance hr hv.symm
  case shift => exact (scroll_readCell_tail false s.advance hr hv.symm).trans (shiftIn_false _)
  case eight =>
    obtain ⟨t, hrun, hpixel⟩ := run_scrolls_pixel 8 halive hv hport
    refine ⟨t, hrun, fun r hr => BitVec.eq_of_getLsbD_eq fun k hk => ?_⟩
    have hback := hpixel r k hr hk
    rw [Nat.add_mod_right, Nat.mod_eq_of_lt hk] at hback
    calc
      (t.readCell r 0).getLsbD k = t.pixel r (8 * 0 + k) := (t.pixel_eq r 0 hk).symm
      _ = s.pixel r (8 * 0 + k) := by rwa [Nat.mul_zero, Nat.zero_add]
      _ = (s.readCell r 0).getLsbD k := s.pixel_eq r 0 hk

/-! ### The lit pixels of a row (R158) -/

/-- A row moved by one column: the count loses the first column and gains what the last one takes. -/
theorem countP_range_of_shift {p q : Nat → Bool} {n : Nat} (h : ∀ c, c < n → q c = p (c + 1)) :
    (List.range (n + 1)).countP q + (p 0).toNat = (List.range (n + 1)).countP p + (q n).toNat := by
  have hsame : (List.range n).countP q = (List.range n).countP (p ∘ Nat.succ) :=
    List.countP_congr fun c hc => by rw [h c (List.mem_range.1 hc)]; rfl
  have hfirst : (List.range (n + 1)).countP p = (List.range n).countP (p ∘ Nat.succ) + (p 0).toNat := by
    rw [List.range_succ_eq_map, List.countP_cons, List.countP_map, Bool.toNat, Bool.cond_eq_ite]
  have hlast : (List.range (n + 1)).countP q = (List.range n).countP q + (q n).toNat := by
    rw [List.range_succ, List.countP_append, List.countP_singleton, Bool.toNat, Bool.cond_eq_ite]
  omega

/-- Settles O43: `scroll_pixel` says that a row is shifted by one column. -/
theorem scrollPixelCount : Obligations.ScrollPixelCount := by
  intro wrap s t r halive hr hv h
  cases (exec_alive _ halive).symm.trans h
  obtain ⟨n, hn⟩ : ∃ n, 8 * s.vlen = n + 1 := ⟨8 * s.vlen - 1, by omega⟩
  have hpixel : ∀ c, c < n + 1 → (commandBody (.scroll wrap) s.advance).pixel r c =
      if c + 1 < n + 1 then s.pixel r (c + 1) else wrap && s.pixel r (8 * (s.vlen - 1)) := fun c hc => by
    rw [← hn] at hc ⊢
    exact scroll_pixel wrap s.advance hr hc
  have hcount := countP_range_of_shift (n := n) fun c hc => (hpixel c (by omega)).trans (if_pos (by omega))
  rw [hpixel n (by omega), if_neg (by omega)] at hcount
  rw [hn]
  exact hcount

end Sys2Proof.Machine

/-!
# SET_VLEN and SET_INTENSITY (44_control.md)

Both commands take one field of the word as it is (`N`, `LVL`). SET_VLEN has three bodies, one for each side of the two
bounds on `n`; a register write is one frame of `CHAIN` equal bytes (`State.writeRegister_eq`).
-/

namespace Sys2Proof

/-- The row of SET_VLEN: one operand, `N` (R72, R75). -/
theorem decode_eq_setVlen_iff {t : Transfer} {n : BitVec 16} :
    decode t = .ok (.setVlen n) ↔ t.c &&& 0xFFFF0000#32 = 0x60000000#32 ∧ n = t.c.n :=
  decode_eq_ok_iff_row.trans (and_congr_right fun _ => Iff.of_eq (Instr.setVlen.injEq ..))

/-- The row of SET_INTENSITY: one operand, `LVL` (R72, R75). -/
theorem decode_eq_setIntensity_iff {t : Transfer} {level : BitVec 4} :
    decode t = .ok (.setIntensity level) ↔ t.c &&& 0xFFFFFFF0#32 = 0x70000000#32 ∧ level = t.c.lvl :=
  decode_eq_ok_iff_row.trans (and_congr_right fun _ => Iff.of_eq (Instr.setIntensity.injEq ..))

end Sys2Proof

namespace Sys2Proof.Machine

/-! ### SET_VLEN (R170) -/

theorem setVlen_belowChain {n : BitVec 16} {s : State} (h : n.toNat < s.chain) :
    commandBody (.setVlen n) s = s.fail statusRange :=
  if_pos h

theorem setVlen_aboveVmax {n : BitVec 16} {s : State} (hchain : s.chain ≤ n.toNat) (hvmax : s.params.vmax < n.toNat) :
    commandBody (.setVlen n) s = s.fail statusAlloc :=
  (if_neg (Nat.not_lt.2 hchain)).trans (if_pos hvmax)

theorem setVlen_inside {n : BitVec 16} {s : State} (hchain : s.chain ≤ n.toNat) (hvmax : n.toNat ≤ s.params.vmax) :
    commandBody (.setVlen n) s = (State.setAllDirty { s with vlen := n.toNat, vb := Memory.zeroed }).done :=
  (if_neg (Nat.not_lt.2 hchain)).trans (if_neg (Nat.not_lt.2 hvmax))

/-- Settles O44: the row of the opcode map, then the three branches of the body. -/
theorem setVlenRule : Obligations.SetVlenRule := by
  refine ⟨fun _ _ => decode_eq_setVlen_iff, fun _ => decode_error_of_mustBeZero .setVlen,
    fun n s halive hchain => ?range, fun n s halive hchain hvmax => ?alloc, fun n s halive hchain hvmax => ?inside⟩
  case range =>
    rw [exec_alive _ halive, setVlen_belowChain (s := s.advance) hchain]
    rfl
  case alloc =>
    rw [exec_alive _ halive, setVlen_aboveVmax (s := s.advance) hchain hvmax]
    rfl
  case inside =>
    rw [exec_alive _ halive, setVlen_inside (s := s.advance) hchain hvmax]
    exact ⟨_, rfl, rfl, fun r m _ => Memory.readAt_zeroed (cellAddr r m)⟩

/-! ### SET_INTENSITY (R172) -/

/-- A register write is one frame with one equal write per physical module, and changes nothing but the stream. -/
theorem State.writeRegister_eq (s : State) (a d : Byte) :
    s.writeRegister a d =
      { s with events := s.events ++ [.sel] ++ List.replicate s.chain (.wr a d) ++ [.desel] } := by
  rw [State.writeRegister, registerFrame_eq, State.emit]
  simp only [List.append_assoc]

theorem setIntensity_eq (level : BitVec 4) (s : State) :
    commandBody (.setIntensity level) s =
      { s with
        status := 0x00#8
        events := s.events ++ [.sel] ++
          List.replicate s.chain (.wr s.params.regIntensity (BitVec.ofNat 8 level.toNat)) ++ [.desel] } := by
  rw [commandBody, State.writeRegister_eq, BitVec.ofNat_toNat]
  rfl

/-- Settles O48: the row of the opcode map, and the body, after `CI` advanced. -/
theorem setIntensityRule : Obligations.SetIntensityRule := by
  refine ⟨fun _ _ => decode_eq_setIntensity_iff, fun _ => decode_error_of_mustBeZero .setIntensity,
    fun level s halive => ?effect⟩
  case effect =>
    rw [exec_alive _ halive, setIntensity_eq]
    rfl

end Sys2Proof.Machine

/-!
# The encoder (30_encoding.md sections 2, 3 and 5)

A command word is an `or` of fields, and three rules say all that is needed of one: what a slice of the word reads
(`extractLsb'_field_same`, `extractLsb'_field_of_apart`), what a mask leaves of it (`field_and`), and which bits of a word are
its own (`field_extractLsb'`). The round trips of `decode` and `encode` and the words of R79 follow command by command.
-/

namespace Sys2Proof

/-! ### A field of a word (R71) -/

theorem getElem_field {w : Nat} (v : BitVec w) (lo : Nat) {k : Nat} (hk : k < 32) :
    (field v lo)[k] = (decide (lo ≤ k) && v.getLsbD (k - lo)) := by
  simp only [field, BitVec.getElem_shiftLeft, BitVec.getElem_setWidth]
  by_cases hlo : k < lo
  · simp [hlo]
  · simp [hlo, Nat.le_of_not_lt hlo]

/-- Reading the slice a value was put at gives the value. -/
theorem extractLsb'_field_same {w : Nat} (v : BitVec w) {lo : Nat} (h : lo + w ≤ 32) :
    (field v lo).extractLsb' lo w = v := by
  ext k hk
  rw [BitVec.getElem_extractLsb', BitVec.getLsbD_eq_getElem (by omega), getElem_field]
  simp [hk]

/-- Reading a slice that the field does not meet gives 0. -/
theorem extractLsb'_field_of_apart {w : Nat} (v : BitVec w) {lo lo' w' : Nat} (h : lo' + w' ≤ lo ∨ lo + w ≤ lo') :
    (field v lo).extractLsb' lo' w' = 0 := by
  ext k hk
  rw [BitVec.getElem_extractLsb']
  by_cases hin : lo' + k < 32
  · rw [BitVec.getLsbD_eq_getElem hin, getElem_field]
    rcases h with hbelow | habove
    · have hlo : ¬ lo ≤ lo' + k := by omega
      simp [hlo]
    · simp [BitVec.getLsbD_of_ge v (lo' + k - lo) (by omega)]
  · simp [BitVec.getLsbD_of_ge (field v lo) (lo' + k) (by omega)]

/-- A mask acts on a field through the mask's own slice. -/
theorem field_and {w : Nat} (v : BitVec w) (lo : Nat) (m : CmdWord) :
    field v lo &&& m = field (v &&& m.extractLsb' lo w) lo := by
  ext k hk
  rw [BitVec.getElem_and, getElem_field, getElem_field, BitVec.getLsbD_and, BitVec.getLsbD_extractLsb']
  by_cases hlo : lo ≤ k
  · by_cases hw : k - lo < w
    · simp [hlo, hw, BitVec.getLsbD_eq_getElem hk]
    · simp [BitVec.getLsbD_of_ge v (k - lo) (by omega)]
  · simp [hlo]

/-- A slice of a word put back at its place: the word's bits there. -/
theorem field_extractLsb' (c : CmdWord) (lo w : Nat) :
    field (c.extractLsb' lo w) lo = c &&& field (BitVec.allOnes w) lo := by
  rw [BitVec.and_comm, field_and, BitVec.allOnes_and]

@[simp] theorem field_zero (w lo : Nat) : field 0#w lo = 0#32 := by simp [field]

theorem ofBool_getLsbD (c : CmdWord) (k : Nat) : BitVec.ofBool (c.getLsbD k) = c.extractLsb' k 1 := by
  ext j hj
  obtain rfl : j = 0 := by omega
  simp

/-! ### Decoding what was encoded -/

/-- The word of a command passes R73's test of the command's row: `OP` is the row's, and the mask leaves no operand. -/
theorem Instr.word_and_mask (i : Instr) : i.word &&& i.opcode.mask = i.opcode.pattern := by
  rw [Opcode.pattern_eq]
  cases i <;> simp [Instr.word, Instr.opcode, Opcode.mask, Opcode.code, BitVec.and_or_distrib_right, field_and]

/-- `V` as a slice of one bit. -/
theorem CmdWord.v_eq (c : CmdWord) : c.v = (c.extractLsb' 24 1).getLsbD 0 := by
  simp [CmdWord.v]

/-- The operands come back from their fields (R75). -/
theorem Instr.build_encode (i : Instr) : i.opcode.build (encode i) = i := by
  cases i <;>
    simp [Instr.opcode, Opcode.build, encode, Instr.operand, Instr.word, CmdWord.row, CmdWord.col, CmdWord.v_eq, CmdWord.n,
      CmdWord.lvl, CmdWord.byte, BitVec.extractLsb'_or, extractLsb'_field_same, extractLsb'_field_of_apart]

/-- Settles O1: the command's own row selects its word, and the operands come back. -/
theorem decodeOfEncodeIsTheCommand : Obligations.DecodeOfEncodeIsTheCommand :=
  fun i => decode_eq_ok_iff_row.2 ⟨i.word_and_mask, i.build_encode.symm⟩

/-! ### Encoding what was decoded -/

/-- A command built from a word has the row's `OP` and, where the mask is 0, the bits of the word. -/
theorem Opcode.word_build (o : Opcode) (t : Transfer) : (o.build t).word = o.pattern ||| (t.c &&& ~~~o.mask) := by
  cases o with
  | flush | shutdown => simp [Opcode.build, Instr.word, Opcode.pattern_eq, Opcode.code, Opcode.mask]
  | _ =>
    simp only [Opcode.build, Instr.word, Opcode.pattern_eq, Opcode.code, CmdWord.row, CmdWord.col, CmdWord.v, CmdWord.n,
      CmdWord.lvl, CmdWord.byte, ofBool_getLsbD, field_extractLsb', BitVec.or_assoc, ← BitVec.and_or_distrib_left]
    rfl

/-- Settles O2: the mask's bits are the row's, the other bits the operands'. -/
theorem encodeOfDecodeIsTheWord : Obligations.EncodeOfDecodeIsTheWord := by
  intro t i h
  obtain ⟨hrow, hbuild⟩ := decode_eq_ok_iff_row.1 h
  refine ⟨?word, fun row data hi => ?operand⟩
  case word =>
    calc
      i.word = (i.opcode.build t).word := congrArg Instr.word hbuild
      _ = (t.c &&& i.opcode.mask) ||| (t.c &&& ~~~i.opcode.mask) := by rw [i.opcode.word_build, hrow]
      _ = t.c := by rw [← BitVec.and_or_distrib_left, BitVec.or_not_self, BitVec.and_allOnes]
  case operand =>
    subst hi
    exact (decode_eq_setRowBits_iff.1 h).2.2

/-- Settles O3: a row's `OP` tells it from the others. -/
theorem atMostOneRowSelectsAWord : Obligations.AtMostOneRowSelectsAWord :=
  fun _ _ _ => Opcode.eq_of_selects

/-- Settles O7: each word run through the decoder. -/
theorem wordsDecodeToTheirCommands : Obligations.WordsDecodeToTheirCommands := by
  refine ⟨?_, ?_, ?_, ?_, ?_, ?_, ?_, ?_, ?_, ?_⟩ <;> decide

end Sys2Proof

namespace Sys2Proof.Machine

/-! ### The words of the assembler (R79) -/

theorem field_ofNat {w n : Nat} (hn : n < 2 ^ w) (lo : Nat) : field (BitVec.ofNat w n) lo = BitVec.ofNat 32 (n * 2 ^ lo) := by
  refine BitVec.eq_of_toNat_eq ?_
  simp [field, Nat.shiftLeft_eq, Nat.mod_eq_of_lt hn]

/-- The `OP` field, the highest of a word. -/
theorem field_op (op : BitVec 4) : field op 28 = BitVec.ofNat 32 (op.toNat * 2 ^ 28) := by
  rw [← field_ofNat op.isLt, BitVec.ofNat_toNat, BitVec.setWidth_eq]

/-- A field put below all that a word holds so far is a summand. -/
theorem ofNat_or_field {w n lo a : Nat} (hn : n < 2 ^ w) (ha : 2 ^ (lo + w) ∣ a) :
    BitVec.ofNat 32 a ||| field (BitVec.ofNat w n) lo = BitVec.ofNat 32 (a + n * 2 ^ lo) := by
  obtain ⟨b, rfl⟩ := ha
  have hbelow : n * 2 ^ lo < 2 ^ (lo + w) :=
    calc
      n * 2 ^ lo < 2 ^ w * 2 ^ lo := Nat.mul_lt_mul_of_pos_right hn (by positivity)
      _ = 2 ^ (lo + w) := by rw [← pow_add, Nat.add_comm]
  rw [field_ofNat hn, ← BitVec.ofNat_or, Nat.two_pow_add_eq_or_of_lt hbelow]

theorem ofBool_decide_eq_one {v : Nat} (hv : v < 2) : BitVec.ofBool (decide (v = 1)) = BitVec.ofNat 1 v := by
  interval_cases v <;> rfl

/-- R79's `D` column: byte `i` of the list at bits `8 * i + 7` to `8 * i`, a missing one 0x00. -/
theorem packBytes_byte (bytes : List Nat) {i : Nat} (hi : i < 8) :
    (packBytes bytes).extractLsb' (8 * i) 8 = BitVec.ofNat 8 (bytes.getD i 0) := by
  induction bytes generalizing i with
  | nil => simp [packBytes]
  | cons b bytes ih =>
    cases i with
    | zero =>
      ext j hj
      have hin : j < 64 := by omega
      simp [packBytes, hj, hin]
    | succ i =>
      have hrest : (packBytes (b :: bytes)).extractLsb' (8 * (i + 1)) 8 = (packBytes bytes).extractLsb' (8 * i) 8 := by
        ext j hj
        simp only [packBytes, BitVec.getElem_extractLsb', BitVec.getLsbD_or, BitVec.getLsbD_setWidth,
          BitVec.getLsbD_shiftLeft]
        rw [BitVec.getLsbD_of_ge (BitVec.ofNat 8 b) _ (by omega)]
        have hsub : 8 * (i + 1) + j - 8 = 8 * i + j := by omega
        have hin : 8 * (i + 1) + j < 64 := by omega
        have hlow : ¬ 8 * (i + 1) + j < 8 := by omega
        simp only [hsub, hin, hlow, decide_true, decide_false, Bool.not_false, Bool.true_and, Bool.and_false, Bool.false_or]
      rw [hrest, ih (by omega), List.getD_cons_succ]

/-- The words of R79 with the operands as numbers, each field a summand. -/
theorem word_setPixel {row col v : Nat} (hrow : row < 256) (hcol : col < 65536) (hv : v < 2) :
    (Instr.setPixel (BitVec.ofNat 8 row) (BitVec.ofNat 16 col) (decide (v = 1))).word =
      BitVec.ofNat 32 (0x1 * 2 ^ 28 + v * 2 ^ 24 + row * 2 ^ 16 + col) := by
  rw [Instr.word, field_op, BitVec.toNat_ofNat, ofBool_decide_eq_one hv, ofNat_or_field hv (by decide),
    ofNat_or_field hrow (by omega), ofNat_or_field hcol (by omega), pow_zero, Nat.mul_one]

theorem word_setRow {row v : Nat} (hrow : row < 256) (hv : v < 2) :
    (Instr.setRow (BitVec.ofNat 8 row) (decide (v = 1))).word =
      BitVec.ofNat 32 (0x2 * 2 ^ 28 + v * 2 ^ 24 + row * 2 ^ 16) := by
  rw [Instr.word, field_op, BitVec.toNat_ofNat, ofBool_decide_eq_one hv, ofNat_or_field hv (by decide),
    ofNat_or_field hrow (by omega)]

theorem word_setRowBits {row : Nat} (hrow : row < 256) (data : DataWord) :
    (Instr.setRowBits (BitVec.ofNat 8 row) data).word = BitVec.ofNat 32 (0x3 * 2 ^ 28 + row * 2 ^ 16) := by
  rw [Instr.word, field_op, BitVec.toNat_ofNat, ofNat_or_field hrow (by decide)]

theorem word_scroll {w : Nat} (hw : w < 2) :
    (Instr.scroll (decide (w = 1))).word = BitVec.ofNat 32 (0x5 * 2 ^ 28 + w * 2 ^ 24) := by
  rw [Instr.word, field_op, BitVec.toNat_ofNat, ofBool_decide_eq_one hw, ofNat_or_field hw (by decide)]

/-- The commands with one operand at the foot of the word. -/
theorem field_op_or_field_zero {w n : Nat} (hn : n < 2 ^ w) (hw : w ≤ 28) (op : BitVec 4) :
    field op 28 ||| field (BitVec.ofNat w n) 0 = BitVec.ofNat 32 (op.toNat * 2 ^ 28 + n) := by
  have hfits : 2 ^ (0 + w) ∣ op.toNat * 2 ^ 28 := by
    rw [Nat.zero_add]
    exact Dvd.dvd.mul_left (pow_dvd_pow 2 hw) _
  rw [field_op, ofNat_or_field hn hfits, pow_zero, Nat.mul_one]

theorem assembleLine_eq {a : Asm} (h : a.wellFormed = true) {c : CmdWord} (hc : (lineTransfer a).c = c) :
    assembleLine a = some ⟨c, (lineTransfer a).d⟩ := by
  rw [assembleLine, if_pos h, ← hc]

theorem assembleLine_eq_none {a : Asm} (h : ¬ a.wellFormed = true) : assembleLine a = none := if_neg h

/-- Settles O8: a line in range is its transfer, whose word is summed field by field; a line out of range fails the check of its
operands. -/
theorem assemblyLinesGiveTheirWords : Obligations.AssemblyLinesGiveTheirWords := by
  refine ⟨fun row col v hrow hcol hv => ?setpix, fun row v hrow hv => ?setrow, fun row bytes hrow hlen hbytes => ?rowbits,
    rfl, fun w hw => ?scroll, fun n hn => ?setvlen, fun level hlevel => ?intens, rfl, fun b hb => ?rev,
    fun w hw => ?word, fun row col v h => assembleLine_eq_none ?wideSetpix, fun row v h => assembleLine_eq_none ?wideSetrow,
    fun row bytes h => assembleLine_eq_none ?wideRowbits, fun w h => assembleLine_eq_none ?wideScroll,
    fun n h => assembleLine_eq_none ?wideSetvlen, fun level h => assembleLine_eq_none ?wideIntens,
    fun b h => assembleLine_eq_none ?wideRev, fun w h => assembleLine_eq_none ?wideWord⟩
  case setpix => exact assembleLine_eq (by simp [Asm.wellFormed, hrow, hcol, hv]) (word_setPixel hrow hcol hv)
  case setrow => exact assembleLine_eq (by simp [Asm.wellFormed, hrow, hv]) (word_setRow hrow hv)
  case rowbits =>
    have hwf : (Asm.rowbits row bytes).wellFormed = true := by
      simpa [Asm.wellFormed, hrow, hlen] using hbytes
    exact ⟨packBytes bytes, assembleLine_eq hwf (word_setRowBits hrow (packBytes bytes)),
      fun _ hi => packBytes_byte bytes hi⟩
  case scroll => exact assembleLine_eq (by simp [Asm.wellFormed, hw]) (word_scroll hw)
  case setvlen => exact assembleLine_eq (by simp [Asm.wellFormed, hn]) (field_op_or_field_zero hn (by decide) 0x6#4)
  case intens => exact assembleLine_eq (by simp [Asm.wellFormed, hlevel]) (field_op_or_field_zero hlevel (by decide) 0x7#4)
  case rev => exact assembleLine_eq (by simp [Asm.wellFormed, hb]) (field_op_or_field_zero hb (by decide) 0x9#4)
  case word => exact assembleLine_eq (by simpa [Asm.wellFormed] using hw) rfl
  case wideRowbits =>
    simp only [Asm.wellFormed, Bool.and_eq_true, decide_eq_true_eq, List.all_eq_true]
    rintro ⟨⟨hrow, hlen⟩, hbytes⟩
    rcases h with hwide | hlong | ⟨b, hmem, hwide⟩
    · omega
    · omega
    · exact absurd (hbytes b hmem) (Nat.not_lt.2 hwide)
  all_goals
    simp only [Asm.wellFormed, Bool.and_eq_true, decide_eq_true_eq]
    omega

end Sys2Proof.Machine

/-!
# A command, field by field

What each command leaves in each field is written down once, as a function of the state its body begins in: the registers and
flags (`vlenAfter` to `lifeAfter`), the frames it sends (`sentFrames`) and the cells (`cellAfter`). `commandBody_eq` and
`commandBody_readCell` tie these to the model, and the statements about all commands at once (the codes of R200, the stream
of R58, who changes what, what the host sees) are read off them.
-/

namespace Sys2Proof.Machine

/-! ### The registers and the flags -/

/-- `VLEN` after a command: SET_VLEN is its one writer (R25, R170). -/
def vlenAfter : Instr → State → Nat
  | .setVlen n, s => if s.chain ≤ n.toNat ∧ n.toNat ≤ s.params.vmax then n.toNat else s.vlen
  | .setPixel _ _ _, s => s.vlen
  | .setRow _ _, s => s.vlen
  | .setRowBits _ _, s => s.vlen
  | .flush, s => s.vlen
  | .scroll _, s => s.vlen
  | .setIntensity _, s => s.vlen
  | .shutdown, s => s.vlen
  | .reverse _, s => s.vlen

/-- `DIRTY` after a command (R26). -/
def dirtyAfter : Instr → State → BitVec 8
  | .setPixel row col _, s =>
    if row.toNat < 8 ∧ col.toNat < 8 * s.vlen then s.dirty ||| (0x01#8 <<< row.toNat) else s.dirty
  | .setRow row _, s => if row.toNat < 8 then s.dirty ||| (0x01#8 <<< row.toNat) else s.dirty
  | .flush, _ => 0x00#8
  | .setVlen n, s => if s.chain ≤ n.toNat ∧ n.toNat ≤ s.params.vmax then 0xFF#8 else s.dirty
  | .setRowBits _ _, s => s.dirty
  | .scroll _, s => s.dirty
  | .setIntensity _, s => s.dirty
  | .shutdown, s => s.dirty
  | .reverse _, s => s.dirty

/-- `STATUS` after a command: SET_VLEN alone can fail, and tests `CHAIN` first (R170, R205). -/
def statusAfter : Instr → State → Byte
  | .setVlen n, s => if n.toNat < s.chain then 0x02#8 else if s.params.vmax < n.toNat then 0x01#8 else 0x00#8
  | .setPixel _ _ _, _ => 0x00#8
  | .setRow _ _, _ => 0x00#8
  | .setRowBits _ _, _ => 0x00#8
  | .flush, _ => 0x00#8
  | .scroll _, _ => 0x00#8
  | .setIntensity _, _ => 0x00#8
  | .shutdown, _ => 0x00#8
  | .reverse _, _ => 0x00#8

/-- `RESULT` after a command (R29). -/
def resultAfter : Instr → State → Byte
  | .reverse b, _ => reverseByte b
  | .setPixel _ _ _, s => s.result
  | .setRow _ _, s => s.result
  | .setRowBits _ _, s => s.result
  | .flush, s => s.result
  | .scroll _, s => s.result
  | .setVlen _, s => s.result
  | .setIntensity _, s => s.result
  | .shutdown, s => s.result

/-- `LIFE` after a command (R30). -/
def lifeAfter : Instr → State → Life
  | .shutdown, _ => .dead
  | .setPixel _ _ _, s => s.life
  | .setRow _ _, s => s.life
  | .setRowBits _ _, s => s.life
  | .flush, s => s.life
  | .scroll _, s => s.life
  | .setVlen _, s => s.life
  | .setIntensity _, s => s.life
  | .reverse _, s => s.life

/-! ### The cells and the frames -/

/-- Every cell after a command. -/
def cellAfter : Instr → State → Nat → Nat → Byte
  | .setPixel row col on, s, r, m =>
    if r = row.toNat ∧ m = columnModule col.toNat ∧ col.toNat < 8 * s.vlen then
      withBit (s.readCell r m) (columnBit col.toNat) on
    else s.readCell r m
  | .setRow row allOn, s, r, m => if r = row.toNat ∧ m < s.vlen then fillByte allOn else s.readCell r m
  | .scroll wrap, s, r, m => shiftedCell s.vlen wrap (s.readCell r) m
  | .setVlen n, s, r, m => if s.chain ≤ n.toNat ∧ n.toNat ≤ s.params.vmax then 0x00#8 else s.readCell r m
  | .setRowBits _ _, s, r, m => s.readCell r m
  | .flush, s, r, m => s.readCell r m
  | .setIntensity _, s, r, m => s.readCell r m
  | .shutdown, s, r, m => s.readCell r m
  | .reverse _, s, r, m => s.readCell r m

/-- A SET_VLEN outside the bounds writes `STATUS` alone (R171). -/
theorem setVlen_outside {n : BitVec 16} {s : State} (h : ¬ (s.chain ≤ n.toNat ∧ n.toNat ≤ s.params.vmax)) :
    ∃ code, commandBody (.setVlen n) s = s.fail code := by
  rcases lt_or_ge n.toNat s.chain with hlow | hlow
  · exact ⟨_, setVlen_belowChain hlow⟩
  · exact ⟨_, setVlen_aboveVmax hlow (by omega)⟩

theorem commandBody_readCell (i : Instr) (s : State) {r : Nat} (hr : r < 8) (m : Nat) :
    (commandBody i s).readCell r m = cellAfter i s r m := by
  cases i with
  | setPixel row col on =>
    rw [cellAfter]
    by_cases hin : row.toNat < 8 ∧ col.toNat < 8 * s.vlen
    · obtain ⟨hrow, hcol⟩ := hin
      rw [setPixel_inside on hrow hcol]
      simp only [hcol, and_true]
      exact s.readCell_writePixel hrow col.toNat on hr m
    · rw [setPixel_outside on (by omega), if_neg (by omega)]
      rfl
  | setRow row allOn =>
    rw [cellAfter]
    by_cases hrow : row.toNat < 8
    · exact setRow_readCell allOn s hrow hr m
    · rw [setRow_outside allOn s (by omega), if_neg (by omega)]
      rfl
  | setRowBits row data =>
    rw [commandBody]
    split <;> rfl
  | flush =>
    rw [flush_eq]
    rfl
  | scroll wrap => exact scroll_readCell wrap s hr m
  | setVlen n =>
    rw [cellAfter]
    by_cases hin : s.chain ≤ n.toNat ∧ n.toNat ≤ s.params.vmax
    · rw [setVlen_inside hin.1 hin.2, if_pos hin]
      exact Memory.readAt_zeroed _
    · obtain ⟨code, hfail⟩ := setVlen_outside hin
      rw [hfail, if_neg hin]
      rfl
  | setIntensity level => rfl
  | shutdown => rfl
  | reverse b => rfl

/-- A row register's frame, for a row whose modules hold `cell` (R24, R130). -/
def rowFrame (s : State) (cell : Nat → Nat → Byte) (r : Nat) : Byte × List Byte :=
  (wireAddr r, (List.range s.chain).map fun i => enc s.rev (cell r i))

/-- The frames a command sends, each an address and one byte per physical module: SCROLL sends the rows as it leaves them
(R133, R150), SET_ROW_BITS the operand as it is (R114). -/
def sentFrames : Instr → State → List (Byte × List Byte)
  | .setRowBits row data, s => if row.toNat < 8 then [(wireAddr row.toNat, (List.range s.chain).map (rawByte data))] else []
  | .flush, s => (rows.filter s.isDirty).map (rowFrame s s.readCell)
  | .scroll wrap, s => rows.map (rowFrame s (cellAfter (.scroll wrap) s))
  | .setIntensity level, s => [(s.params.regIntensity, List.replicate s.chain (level.setWidth 8))]
  | .shutdown, s => [(s.params.regShutdown, List.replicate s.chain s.params.valShutdownEnter)]
  | .setPixel _ _ _, _ => []
  | .setRow _ _, _ => []
  | .setVlen _, _ => []
  | .reverse _, _ => []

/-- The events of a list of frames. -/
def frameEvents (fs : List (Byte × List Byte)) : List Event := fs.flatMap fun f => frame f.1 f.2

@[simp] theorem frameEvents_nil : frameEvents [] = [] := rfl

@[simp] theorem frameEvents_singleton (f : Byte × List Byte) : frameEvents [f] = frame f.1 f.2 := by simp [frameEvents]

theorem frameEvents_append (fs gs : List (Byte × List Byte)) : frameEvents (fs ++ gs) = frameEvents fs ++ frameEvents gs :=
  List.flatMap_append

theorem frameEvents_map (f : Nat → Byte × List Byte) (rs : List Nat) :
    frameEvents (rs.map f) = rs.flatMap fun r => frame (f r).1 (f r).2 :=
  List.flatMap_map ..

theorem scroll_proj (wrap : Bool) (s : State) {r : Nat} (hr : r < 8) :
    (commandBody (.scroll wrap) s).proj r = (rowFrame s (cellAfter (.scroll wrap) s) r).2 := by
  have hkeeps := commandBody_keeps (.scroll wrap) s
  simp only [State.proj, rowFrame, hkeeps.chain, hkeeps.rev, commandBody_readCell _ s hr]

theorem commandBody_events (i : Instr) (s : State) :
    (commandBody i s).events = s.events ++ frameEvents (sentFrames i s) := by
  cases i with
  | setPixel row col on =>
    rw [commandBody]
    split <;> simp [sentFrames, State.writePixel]
  | setRow row allOn =>
    obtain ⟨vb, hfill⟩ := s.fillRow_frame row.toNat (fillByte allOn)
    rw [commandBody, hfill]
    split <;> simp [sentFrames]
  | setRowBits row data =>
    rw [commandBody]
    split
    case isTrue hout => simp [sentFrames, Nat.not_lt.2 hout]
    case isFalse hin => simp [sentFrames, Nat.lt_of_not_le hin]
  | flush =>
    rw [flush_eq, sentFrames, frameEvents_map]
    rfl
  | scroll wrap =>
    rw [scroll_eq, sentFrames, frameEvents_map]
    refine congrArg (s.events ++ ·) (List.flatMap_congr fun r hr => ?_)
    exact congrArg (frame (wireAddr r)) (scroll_proj wrap s (mem_rows.1 hr))
  | setVlen n =>
    rw [commandBody]
    split_ifs <;> simp [sentFrames]
  | setIntensity level => simp [commandBody, sentFrames, registerFrame]
  | shutdown => simp [commandBody, sentFrames, registerFrame]
  | reverse b => simp [commandBody, sentFrames]

/-- A command as one update of the state its body begins in: `CHAIN`, `REV`, `CI`, the refusal mark, the parameters and the
port stay, and each other field is as the functions above have it. -/
theorem commandBody_eq (i : Instr) (s : State) :
    commandBody i s =
      { s with
        vb := (commandBody i s).vb
        vlen := vlenAfter i s
        dirty := dirtyAfter i s
        status := statusAfter i s
        result := resultAfter i s
        life := lifeAfter i s
        events := s.events ++ frameEvents (sentFrames i s) } := by
  rw [← commandBody_events]
  cases i with
  | setPixel row col on =>
    by_cases hin : row.toNat < 8 ∧ col.toNat < 8 * s.vlen
    · simp only [dirtyAfter, if_pos hin, setPixel_inside on hin.1 hin.2]
      rfl
    · simp only [dirtyAfter, if_neg hin, setPixel_outside (row := row) (col := col) (s := s) on (by omega)]
      rfl
  | setRow row allOn =>
    obtain ⟨vb, hfill⟩ := s.fillRow_frame row.toNat (fillByte allOn)
    by_cases hrow : row.toNat < 8
    · simp only [dirtyAfter, if_pos hrow, setRow_inside allOn s hrow, hfill]
      rfl
    · simp only [dirtyAfter, if_neg hrow, setRow_outside allOn s (Nat.le_of_not_lt hrow)]
      rfl
  | setRowBits row data =>
    rw [commandBody]
    split <;> rfl
  | flush =>
    rw [flush_eq]
    rfl
  | scroll wrap =>
    obtain ⟨vb, es, hscroll⟩ := scrollRows_frame wrap s
    rw [commandBody, hscroll]
    rfl
  | setVlen n =>
    simp only [vlenAfter, dirtyAfter, statusAfter]
    rcases lt_or_ge n.toNat s.chain with hlow | hlow
    · rw [setVlen_belowChain hlow, if_pos hlow, if_neg (by omega), if_neg (by omega)]
      rfl
    rcases lt_or_ge s.params.vmax n.toNat with hhigh | hhigh
    · rw [setVlen_aboveVmax hlow hhigh, if_neg (by omega), if_neg (by omega), if_neg (by omega), if_pos hhigh]
      rfl
    · rw [setVlen_inside hlow hhigh, if_pos ⟨hlow, hhigh⟩, if_pos ⟨hlow, hhigh⟩, if_neg (by omega), if_neg (by omega)]
      rfl
  | setIntensity level => rfl
  | shutdown => rfl
  | reverse b => rfl

theorem commandBody_vlen (i : Instr) (s : State) : (commandBody i s).vlen = vlenAfter i s :=
  congrArg State.vlen (commandBody_eq i s)

theorem commandBody_dirty (i : Instr) (s : State) : (commandBody i s).dirty = dirtyAfter i s :=
  congrArg State.dirty (commandBody_eq i s)

theorem commandBody_status (i : Instr) (s : State) : (commandBody i s).status = statusAfter i s :=
  congrArg State.status (commandBody_eq i s)

theorem commandBody_result (i : Instr) (s : State) : (commandBody i s).result = resultAfter i s :=
  congrArg State.result (commandBody_eq i s)

theorem commandBody_life (i : Instr) (s : State) : (commandBody i s).life = lifeAfter i s :=
  congrArg State.life (commandBody_eq i s)

theorem commandBody_ci (i : Instr) (s : State) : (commandBody i s).ci = s.ci := by
  rw [commandBody_eq]

theorem commandBody_refusalMark (i : Instr) (s : State) : (commandBody i s).refusalMark = s.refusalMark := by
  rw [commandBody_eq]

end Sys2Proof.Machine

/-!
# One step: what a transfer and a reset do (10_state.md, 60_exceptions.md, 70_reset_and_hazards.md)

A step that takes a transfer is `accept` around one body, whether the word decodes or not (`step_command`): while the block is
dead the transfer sets the refusal mark, and while it is alive `CI` counts it and the body runs.
-/

namespace Sys2Proof.Machine

/-! ### The cases of a step -/

/-- What an accepted transfer does once `CI` has advanced: the body of its command, or `fail(E_ILLEGAL)` (R74). -/
def transferBody (t : Transfer) (s : State) : State :=
  match decode t with
  | .ok i => commandBody i s
  | .error _ => s.fail statusIllegal

theorem transferBody_of_ok {t : Transfer} {i : Instr} (h : decode t = .ok i) : transferBody t = commandBody i := by
  funext s
  rw [transferBody, h]

theorem transferBody_of_error {t : Transfer} {e : IllegalWord} (h : decode t = .error e) :
    transferBody t = fun s => s.fail statusIllegal := by
  funext s
  rw [transferBody, h]

theorem step_command {s : State} {t : Transfer} {rest : List HostInput} (hport : s.port = .command t :: rest) :
    step s = accept { s with port := rest } (transferBody t) := by
  cases hdec : decode t with
  | ok i => rw [step_of_decode_ok hport hdec, exec_eq_accept, transferBody_of_ok hdec]
  | error e => rw [step_of_decode_error hport hdec, transferBody_of_error hdec, execIllegal]

/-- A transfer presented to a dead block (R202). -/
theorem step_command_dead {s : State} {t : Transfer} {rest : List HostInput} (hport : s.port = .command t :: rest)
    (h : s.life = .dead) : step s = .next (State.refuse { s with port := rest }) :=
  (step_command hport).trans (accept_dead (s := { s with port := rest }) h _)

/-- A transfer presented to a block that is alive (R31). -/
theorem step_command_alive {s : State} {t : Transfer} {rest : List HostInput} (hport : s.port = .command t :: rest)
    (h : s.life = .alive) : step s = .next (transferBody t (State.advance { s with port := rest })) :=
  (step_command hport).trans (accept_alive (s := { s with port := rest }) h _)

theorem step_reset {s : State} {chain : Nat} {rev : Bool} {rest : List HostInput}
    (hport : s.port = .reset chain rev :: rest) : step s = applyReset { s with port := rest } chain rev := by
  rw [step, hport]

/-- All that a step that answers a next state can have done. -/
theorem step_next_cases {s t : State} (h : step s = .next t) :
    t = s ∨
    (∃ tr rest, s.port = .command tr :: rest ∧ s.life = .dead ∧ t = State.refuse { s with port := rest }) ∨
    (∃ tr rest, s.port = .command tr :: rest ∧ s.life = .alive ∧
      t = transferBody tr (State.advance { s with port := rest })) ∨
    (∃ chain rev rest, s.port = .reset chain rev :: rest ∧ Config.wellFormed ⟨chain, rev, s.params⟩ = true ∧
      t = State.resetTo { s with port := rest } chain rev) := by
  rcases hp : s.port with _ | ⟨⟨tr⟩ | ⟨chain, rev⟩, rest⟩
  · rw [step, hp] at h
    exact .inl (Host.Outcome.next.inj h).symm
  · rcases accept_cases ((step_command hp).symm.trans h) with ⟨hdead, rfl⟩ | ⟨halive, rfl⟩
    · exact .inr (.inl ⟨tr, rest, rfl, hdead, rfl⟩)
    · exact .inr (.inr (.inl ⟨tr, rest, rfl, halive, rfl⟩))
  · obtain ⟨hwf, rfl⟩ := applyReset_eq_next ((step_reset hp).symm.trans h)
    exact .inr (.inr (.inr ⟨chain, rev, rest, rfl, hwf, rfl⟩))

theorem exec_dead (i : Instr) {s : State} (h : s.life = .dead) : exec i s = .next { s with refusalMark := true } := by
  rw [exec_eq_accept, accept_dead h]
  rfl

theorem transferBody_ci (t : Transfer) (s : State) : (transferBody t s).ci = s.ci := by
  unfold transferBody
  split
  · exact commandBody_ci _ s
  · rfl

theorem transferBody_refusalMark (t : Transfer) (s : State) : (transferBody t s).refusalMark = s.refusalMark := by
  unfold transferBody
  split
  · exact commandBody_refusalMark _ s
  · rfl

/-- Settles O10: the port goes past the transfer and the command runs. -/
theorem stepRunsTheDecodedCommand : Obligations.StepRunsTheDecodedCommand :=
  fun _ _ _ _ => step_of_decode_ok

/-- Settles O11, by the first branch of `step`. -/
theorem stepWithNothingPresentedWaits : Obligations.StepWithNothingPresentedWaits := by
  intro s hport
  rw [step, hport]

/-- Settles O12: `accept` always answers a next state. -/
theorem everyCommandAnswersANextState : Obligations.EveryCommandAnswersANextState :=
  fun i s => exec_eq_accept i s ▸ accept_next s (commandBody i)

/-! ### The order of the conditions (R202, R205) -/

/-- Settles O13: refusal comes before decoding, and each code is the body's. -/
theorem priorityOfConditions : Obligations.PriorityOfConditions := by
  intro s t rest hport
  cases hlife : s.life with
  | dead => exact ⟨_, step_command_dead hport hlife, rfl, rfl⟩
  | alive =>
    refine ⟨_, step_command_alive hport hlife, transferBody_refusalMark t _, ?_⟩
    cases hdec : decode t with
    | error e =>
      rw [transferBody_of_error hdec]
      rfl
    | ok i =>
      rw [transferBody_of_ok hdec, commandBody_status]
      cases i <;> rfl

/-- Settles O14: a dead block runs no body, and only a reset takes the mark away. -/
theorem refusalAfterTeardown : Obligations.RefusalAfterTeardown := by
  refine ⟨fun i s hdead => exec_dead i hdead, fun s t rest hdead hport => step_command_dead hport hdead,
    fun s t hmark hport h => ?mark⟩
  case mark =>
    rcases step_next_cases h with rfl | ⟨tr, rest, -, -, rfl⟩ | ⟨tr, rest, -, -, rfl⟩ | ⟨chain, rev, rest, hp, -⟩
    · exact hmark
    · rfl
    · exact (transferBody_refusalMark tr _).trans hmark
    · exact absurd hp (hport chain rev rest)

/-- Settles O15: no body writes the mark, and a reset clears it. -/
theorem onlyADeadBlockRefuses : Obligations.OnlyADeadBlockRefuses := by
  refine ⟨fun s t hs halive h => ?_, fun k => rfl⟩
  rcases step_next_cases h with rfl | ⟨tr, rest, -, hdead, -⟩ | ⟨tr, rest, -, -, rfl⟩ | ⟨chain, rev, rest, -, -, rfl⟩
  · exact hs
  · cases halive.symm.trans hdead
  · exact (transferBody_refusalMark tr _).trans hs
  · rfl

/-! ### `LIFE` and `CI` (R30, R31) -/

/-- Settles O50: SHUTDOWN is the one body that writes `LIFE`. -/
theorem lifeRule : Obligations.LifeRule := by
  refine ⟨fun k => rfl, fun s t h => ?shutdown, fun i s t hi h => ?other, fun s t h hdead halive => ?revive,
    fun i s hdead => exec_dead i hdead⟩
  case shutdown =>
    rcases exec_cases h with ⟨hdead, rfl⟩ | ⟨-, rfl⟩
    · exact hdead
    · exact commandBody_life .shutdown _
  case other =>
    rcases exec_cases h with ⟨-, rfl⟩ | ⟨-, rfl⟩
    · rfl
    · rw [commandBody_life]
      cases i with
      | shutdown => exact absurd rfl hi
      | _ => rfl
  case revive =>
    rcases step_next_cases h with rfl | ⟨tr, rest, -, -, rfl⟩ | ⟨tr, rest, -, hlife, -⟩ | ⟨chain, rev, rest, hp, -⟩
    · cases hdead.symm.trans halive
    · cases hdead.symm.trans halive
    · cases hdead.symm.trans hlife
    · exact ⟨chain, rev, rest, hp⟩

/-- Settles O51: `CI` advances before the body, which leaves it. -/
theorem commandIndexRule : Obligations.CommandIndexRule :=
  ⟨fun _ => rfl, fun _ t _ halive hport => ⟨_, step_command_alive hport halive, transferBody_ci t _⟩,
    fun _ _ _ hdead hport => ⟨_, step_command_dead hport hdead, rfl⟩⟩

/-! ### Reset (R6, R230) -/

/-- Settles O17: in a well-formed configuration `applyReset` is `State.resetTo`. -/
theorem resetRestartsTheBlock : Obligations.ResetRestartsTheBlock := by
  intro s chain rev rest hport hwf
  rw [step_reset hport, applyReset, if_pos hwf]
  rfl

/-- Settles O18: `wellFormed_iff` spells out the check of `applyReset`. -/
theorem configurationWellFormedness : Obligations.ConfigurationWellFormedness := by
  intro s chain rev rest hport ok
  have hok : Config.wellFormed ⟨chain, rev, s.params⟩ = true ↔ ok := wellFormed_iff _
  rw [step_reset hport, applyReset]
  refine ⟨fun h => ⟨_, if_pos (hok.2 h), rfl, rfl⟩, fun h => if_neg (mt hok.1 h)⟩

end Sys2Proof.Machine

/-!
# The stream (20_memory.md R56 to R58, 70_reset_and_hazards.md R246)

A command appends `sentFrames`: every frame holds one byte per physical module (`length_of_mem_sentFrames`), and its address is
a row register's or the one control register of the command (`sentFrames_address`). Counting the writes is counting frames.
-/

namespace Sys2Proof.Machine

/-! ### What a command appends -/

theorem length_of_mem_sentFrames {i : Instr} {s : State} {f : Byte × List Byte} (hf : f ∈ sentFrames i s) :
    f.2.length = s.chain := by
  cases i with
  | setRowBits row data =>
    rw [sentFrames] at hf
    split at hf
    case isTrue =>
      cases List.mem_singleton.1 hf
      simp
    case isFalse => cases hf
  | flush =>
    obtain ⟨r, -, rfl⟩ := List.mem_map.1 hf
    simp [rowFrame]
  | scroll wrap =>
    obtain ⟨r, -, rfl⟩ := List.mem_map.1 hf
    simp [rowFrame]
  | setIntensity level =>
    cases List.mem_singleton.1 hf
    exact List.length_replicate
  | shutdown =>
    cases List.mem_singleton.1 hf
    exact List.length_replicate
  | setPixel row col on => cases hf
  | setRow row allOn => cases hf
  | setVlen n => cases hf
  | reverse b => cases hf

/-- The frames `exec` appends: those of the body, or none of a refused command. -/
theorem exec_events {i : Instr} {s t : State} (h : exec i s = .next t) :
    t.events = s.events ∨ t.events = s.events ++ frameEvents (sentFrames i s.advance) := by
  rcases exec_cases h with ⟨-, rfl⟩ | ⟨-, rfl⟩
  · exact .inl rfl
  · exact .inr (commandBody_events i s.advance)

/-- The frames of R58, bytes in the order of their writes. -/
theorem frameEvents_map_reverse (fs : List (Byte × List Byte)) :
    ((fs.map fun f => (f.1, f.2.reverse)).flatMap fun f => [.sel] ++ f.2.map (.wr f.1) ++ [.desel]) = frameEvents fs := by
  simp [List.flatMap_map, frameEvents, frame]

/-- Settles O53, by the frames each command sends. -/
theorem commandsAppendWholeFrames : Obligations.CommandsAppendWholeFrames := by
  intro i s t h
  rcases exec_events h with he | he
  · exact ⟨[], fun f hf => absurd hf List.not_mem_nil, by simp [he]⟩
  · refine ⟨(sentFrames i s.advance).map fun f => (f.1, f.2.reverse), fun f hf => ?_, ?_⟩
    · obtain ⟨g, hg, rfl⟩ := List.mem_map.1 hf
      exact List.length_reverse.trans (length_of_mem_sentFrames (s := s.advance) hg)
    · rw [frameEvents_map_reverse, he]

/-! ### The addresses (R56) -/

theorem fst_of_wr_mem_frame {a a' d : Byte} {bytes : List Byte} (h : Event.wr a d ∈ frame a' bytes) : a' = a := by
  have hevents : Event.wr a d = .sel ∨ (∃ b ∈ bytes.reverse, Event.wr a' b = .wr a d) ∨ Event.wr a d = .desel := by
    simpa only [frame, List.mem_cons, List.mem_append, List.mem_map, List.not_mem_nil, or_false] using h
  rcases hevents with hsel | ⟨b, -, hwr⟩ | hdesel
  · cases hsel
  · exact (Event.wr.inj hwr).1
  · cases hdesel

/-- A write of a list of frames goes to the address of one of them. -/
theorem exists_frame_of_wr_mem {a d : Byte} {fs : List (Byte × List Byte)} (h : Event.wr a d ∈ frameEvents fs) :
    ∃ f ∈ fs, f.1 = a := by
  obtain ⟨f, hf, hwr⟩ := List.mem_flatMap.1 h
  exact ⟨f, hf, fst_of_wr_mem_frame hwr⟩

theorem wireAddr_bounds {r : Nat} (hr : r < 8) : 1 ≤ (wireAddr r).toNat ∧ (wireAddr r).toNat ≤ 8 := by
  simp only [wireAddr, BitVec.toNat_ofNat]
  omega

/-- R56's map for the commands. -/
theorem sentFrames_address {i : Instr} {s : State} {f : Byte × List Byte} (hf : f ∈ sentFrames i s) :
    (1 ≤ f.1.toNat ∧ f.1.toNat ≤ 8 ∧ (i = .flush ∨ (∃ wrap, i = .scroll wrap) ∨ ∃ row data, i = .setRowBits row data)) ∨
      (f.1 = s.params.regIntensity ∧ ∃ level, i = .setIntensity level) ∨
      (f.1 = s.params.regShutdown ∧ i = .shutdown) := by
  cases i with
  | setRowBits row data =>
    rw [sentFrames] at hf
    split at hf
    case isTrue hrow =>
      cases List.mem_singleton.1 hf
      obtain ⟨hlow, hhigh⟩ := wireAddr_bounds hrow
      exact .inl ⟨hlow, hhigh, .inr (.inr ⟨row, data, rfl⟩)⟩
    case isFalse => cases hf
  | flush =>
    obtain ⟨r, hr, rfl⟩ := List.mem_map.1 hf
    obtain ⟨hlow, hhigh⟩ := wireAddr_bounds (mem_rows.1 (List.mem_of_mem_filter hr))
    exact .inl ⟨hlow, hhigh, .inl rfl⟩
  | scroll wrap =>
    obtain ⟨r, hr, rfl⟩ := List.mem_map.1 hf
    obtain ⟨hlow, hhigh⟩ := wireAddr_bounds (mem_rows.1 hr)
    exact .inl ⟨hlow, hhigh, .inr (.inl ⟨wrap, rfl⟩)⟩
  | setIntensity level =>
    cases List.mem_singleton.1 hf
    exact .inr (.inl ⟨rfl, level, rfl⟩)
  | shutdown =>
    cases List.mem_singleton.1 hf
    exact .inr (.inr ⟨rfl, rfl⟩)
  | setPixel row col on => cases hf
  | setRow row allOn => cases hf
  | setVlen n => cases hf
  | reverse b => cases hf

/-- The initialization frames as frames (R231). -/
theorem initFrames_eq (chain : Nat) (p : Params) :
    initFrames chain p = frameEvents ((initWrites p).map fun w => (w.1, List.replicate chain w.2)) :=
  (List.flatMap_map ..).symm

/-- R56's map for reset. -/
theorem initWrites_address {p : Params} {w : Byte × Byte} (hw : w ∈ initWrites p) :
    (1 ≤ w.1.toNat ∧ w.1.toNat ≤ 8) ∨ w.1 = p.regDecode ∨ w.1 = p.regIntensity ∨ w.1 = p.regScanlimit ∨
      w.1 = p.regShutdown ∨ w.1 = p.regDisplaytest := by
  rcases List.mem_append.1 hw with hrow | hcontrol
  · obtain ⟨r, hr, rfl⟩ := List.mem_map.1 hrow
    exact .inl (wireAddr_bounds (List.mem_range.1 hr))
  · right
    simp only [List.mem_cons, List.not_mem_nil, or_false] at hcontrol
    rcases hcontrol with rfl | rfl | rfl | rfl | rfl <;> simp

/-- Settles O54: a write goes to its frame's address. -/
theorem wireAddressMap : Obligations.WireAddressMap := by
  refine ⟨fun i s t es a d h hevents hwr => ?command, fun k a d hwr => ?reset⟩
  case command =>
    rcases exec_events h with he | he
    · cases List.append_cancel_left (((List.append_nil _).trans he.symm).trans hevents)
      cases hwr
    · cases List.append_cancel_left (he.symm.trans hevents)
      obtain ⟨f, hf, rfl⟩ := exists_frame_of_wr_mem hwr
      exact sentFrames_address (s := s.advance) hf
  case reset =>
    rw [State.resetWith_events, initFrames_eq] at hwr
    obtain ⟨f, hf, rfl⟩ := exists_frame_of_wr_mem hwr
    obtain ⟨w, hw, rfl⟩ := List.mem_map.1 hf
    exact initWrites_address hw

/-! ### The writes counted (R246) -/

/-- `countWrites_flatMap_frame` for a list of frames in place of a list of rows. -/
theorem countWrites_frameEvents {fs : List (Byte × List Byte)} {n : Nat} (h : ∀ f ∈ fs, f.2.length = n) :
    countWrites (frameEvents fs) = fs.length * n := by
  induction fs with
  | nil => simp [countWrites]
  | cons f fs ih =>
    obtain ⟨hf, hfs⟩ := List.forall_mem_cons.1 h
    have hcons : frameEvents (f :: fs) = frame f.1 f.2 ++ frameEvents fs := List.flatMap_cons
    rw [hcons, countWrites_append, countWrites_frame, hf, ih hfs, List.length_cons, Nat.succ_mul, Nat.add_comm]

/-- A command emits `CHAIN` writes per frame. -/
theorem countWrites_commandBody (i : Instr) (s : State) :
    countWrites (commandBody i s).events = countWrites s.events + (sentFrames i s).length * s.chain := by
  rw [commandBody_events, countWrites_append, countWrites_frameEvents fun _ => length_of_mem_sentFrames]

/-- Settles O55: what is left is how many frames each command sends. -/
theorem writesEmittedPerCommand : Obligations.WritesEmittedPerCommand := by
  refine ⟨fun i s halive => ⟨_, exec_alive i halive, ?_⟩, fun k => countWrites_initFrames k.chain k.params⟩
  rw [countWrites_commandBody]
  refine congrArg (countWrites s.events + ·) ?_
  cases i with
  | flush =>
    have hsent : (sentFrames .flush s.advance).length = s.dirtyCount :=
      (List.length_map _).trans s.advance.length_filter_isDirty
    rw [hsent]
    rfl
  | setRowBits row data =>
    by_cases hrow : row.toNat < 8
    · simp [sentFrames, hrow]
    · simp [sentFrames, hrow]
  | scroll wrap => rfl
  | setIntensity level => exact Nat.one_mul _
  | shutdown => exact Nat.one_mul _
  | setPixel row col on => exact Nat.zero_mul _
  | setRow row allOn => exact Nat.zero_mul _
  | setVlen n => exact Nat.zero_mul _
  | reverse b => exact Nat.zero_mul _

end Sys2Proof.Machine

/-!
# The invariant (10_state.md R37)

Of the six parts of `State.Inv`, the lengths are `step_lengthsOk` and the parameters are never written. The storage keeps its
canonical form because every loop writes through `Memory.writeAt`; the cells at or beyond `VLEN`, the code in `STATUS` and the
stream are read off the fields a command leaves.
-/

namespace Sys2Proof.Machine

/-! ### The canonical form (log 9) -/

theorem State.wf_fillRow {s : State} (h : s.vb.wf = true) (row : Nat) (v : Byte) : (s.fillRow row v).vb.wf = true := by
  unfold State.fillRow
  exact List.foldlRecOn (motive := fun (t : State) => t.vb.wf = true) _ _ h fun _ ht _ _ => Memory.wf_writeAt _ _ ht

theorem wf_shiftRow (vlen : Nat) (wrap : Bool) {vb : Memory} (h : vb.wf = true) (r : Nat) :
    (shiftRow vlen wrap vb r).wf = true := by
  unfold shiftRow
  exact List.foldlRecOn (motive := fun (a : Shift) => a.vb.wf = true) _ _ h fun _ ha _ _ => Memory.wf_writeAt _ _ ha

theorem commandBody_wf (i : Instr) {s : State} (h : s.vb.wf = true) : (commandBody i s).vb.wf = true := by
  cases i with
  | setPixel row col on =>
    rw [commandBody]
    split
    case isTrue => exact h
    case isFalse => exact Memory.wf_writeAt _ _ h
  | setRow row allOn =>
    rw [commandBody]
    split
    case isTrue => exact h
    case isFalse => exact State.wf_fillRow h _ _
  | setRowBits row data =>
    rw [commandBody]
    split <;> exact h
  | flush =>
    rw [flush_eq]
    exact h
  | scroll wrap =>
    exact List.foldlRecOn (motive := fun (t : State) => t.vb.wf = true) rows _ h fun t ht r _ => wf_shiftRow t.vlen wrap ht r
  | setVlen n =>
    rw [commandBody]
    split_ifs
    · exact h
    · exact h
    · exact Memory.wf_zeroed
  | setIntensity level => exact h
  | shutdown => exact h
  | reverse b => exact h

/-! ### The unused storage (R22) -/

/-- No command but SET_VLEN changes a cell at or beyond `VLEN`. -/
theorem cellAfter_of_beyond {i : Instr} (hi : ∀ n, i ≠ .setVlen n) {s : State} {m : Nat} (hm : s.vlen ≤ m) (r : Nat) :
    cellAfter i s r m = s.readCell r m := by
  cases i with
  | setPixel row col on =>
    rw [cellAfter, if_neg]
    rintro ⟨-, hmodule, hcol⟩
    have hbelow : columnModule col.toNat < s.vlen := Nat.div_lt_of_lt_mul hcol
    omega
  | setRow row allOn => exact if_neg fun h => absurd h.2 (Nat.not_lt.2 hm)
  | scroll wrap => exact if_neg (Nat.not_lt.2 hm)
  | setVlen n => exact absurd rfl (hi n)
  | setRowBits row data => rfl
  | flush => rfl
  | setIntensity level => rfl
  | shutdown => rfl
  | reverse b => rfl

theorem commandBody_unusedZero (i : Instr) {s : State} (h : s.UnusedZero) : (commandBody i s).UnusedZero := by
  intro r m hr hm
  rw [commandBody_readCell i s hr]
  by_cases hi : ∀ n, i ≠ .setVlen n
  · rw [(commandBody_keeps i s).vlen hi] at hm
    rw [cellAfter_of_beyond hi hm]
    exact h r m hr hm
  · obtain ⟨n, hn⟩ := not_forall.1 hi
    cases not_not.1 hn
    rw [cellAfter]
    split
    case isTrue => rfl
    case isFalse hout =>
      rw [commandBody_vlen, vlenAfter, if_neg hout] at hm
      exact h r m hr hm

/-! ### `STATUS` (R200) and the stream (R58) -/

theorem statusAfter_le (i : Instr) (s : State) : (statusAfter i s).toNat ≤ 3 := by
  cases i with
  | setVlen n =>
    rw [statusAfter]
    split_ifs <;> decide
  | _ => exact Nat.zero_le 3

theorem Framed.append_frameEvents {es : List Event} (h : Framed es) {fs : List (Byte × List Byte)}
    (hfs : ∀ f ∈ fs, f.2 ≠ []) : Framed (es ++ frameEvents fs) := by
  obtain ⟨gs, hgs, rfl⟩ := h
  exact ⟨gs ++ fs, List.forall_mem_append.2 ⟨hgs, hfs⟩, (frameEvents_append gs fs).symm⟩

theorem Framed.nil : Framed [] := ⟨[], fun _ hf => absurd hf List.not_mem_nil, rfl⟩

/-- With at least one module no frame is empty. -/
theorem Framed.append_initFrames {es : List Event} (h : Framed es) {chain : Nat} (hchain : 1 ≤ chain) (p : Params) :
    Framed (es ++ initFrames chain p) := by
  rw [initFrames_eq]
  refine h.append_frameEvents fun f hf => ?_
  obtain ⟨w, -, rfl⟩ := List.mem_map.1 hf
  exact List.ne_nil_of_length_pos (by rw [List.length_replicate]; exact hchain)

theorem commandBody_framed (i : Instr) {s : State} (hchain : 1 ≤ s.chain) (h : Framed s.events) :
    Framed (commandBody i s).events := by
  rw [commandBody_events]
  exact h.append_frameEvents fun f hf => List.ne_nil_of_length_pos (by rw [length_of_mem_sentFrames hf]; exact hchain)

/-! ### The whole invariant -/

/-- What a transfer's body leaves meets the invariant; its lengths are `step_lengthsOk`. -/
theorem transferBody_inv (tr : Transfer) {s : State} (hs : s.Inv) (hlengths : (transferBody tr s).LengthsOk) :
    (transferBody tr s).Inv := by
  obtain ⟨⟨hchain, -⟩, hintensity, hwf, hunused, -, hframed⟩ := hs
  cases hdec : decode tr with
  | ok i =>
    rw [transferBody_of_ok hdec] at hlengths ⊢
    refine ⟨hlengths, ?_, commandBody_wf i hwf, commandBody_unusedZero i hunused, ?_, commandBody_framed i hchain hframed⟩
    · rw [(commandBody_keeps i s).params]
      exact hintensity
    · rw [State.StatusLegal, commandBody_status]
      exact statusAfter_le i s
  | error e =>
    rw [transferBody_of_error hdec] at hlengths ⊢
    exact ⟨hlengths, hintensity, hwf, hunused, Nat.le_refl 3, hframed⟩

/-- A block just reset meets the invariant, whatever whole frames the stream held before. -/
theorem State.Inv.of_reset {t : State} {k : Config} (hk : k.wellFormed = true) (hvb : t.vb = Memory.zeroed)
    (hvlen : t.vlen = k.chain) (hchain : t.chain = k.chain) (hparams : t.params = k.params) (hstatus : t.status = 0x00#8)
    {es : List Event} (hes : Framed es) (hevents : t.events = es ++ initFrames k.chain k.params) : t.Inv := by
  obtain ⟨h1, -, -, -, hintensity⟩ := (wellFormed_iff k).1 hk
  refine ⟨.of_wellFormed hk hchain hvlen hparams, hparams ▸ hintensity, hvb ▸ Memory.wf_zeroed, fun r m _ _ => ?_, ?_,
    hevents ▸ hes.append_initFrames h1 k.params⟩
  · rw [State.readCell, hvb, Memory.readAt_zeroed]
  · rw [State.StatusLegal, hstatus]
    decide

theorem resetWith_inv {k : Config} (hk : k.wellFormed = true) : (State.resetWith k).Inv :=
  .of_reset hk rfl rfl rfl rfl rfl Framed.nil rfl

/-- The configuration of `State.reset` passes R6, whatever level the free value of log 3 is. -/
theorem suggested_wellFormed : Config.suggested.wellFormed = true := by
  refine (wellFormed_iff _).2 ⟨by decide, by decide, by decide, by decide, ?_⟩
  have hlevel : (Params.openInitIntensity.setWidth 8).toNat ≤ 15 := by
    have hlt := Params.openInitIntensity.isLt
    rw [BitVec.toNat_setWidth]
    omega
  exact hlevel

/-- Settles O20: reset leaves zeroed storage, `VLEN = CHAIN` and the initialization frames. -/
theorem resetMeetsTheInvariant : Obligations.ResetMeetsTheInvariant :=
  ⟨fun _ => resetWith_inv, resetWith_inv suggested_wellFormed⟩

/-- Settles O21, by what the host presents: a refused transfer changes the mark alone, an accepted one is
`transferBody_inv`, and a reset is `State.Inv.of_reset`. -/
theorem everyStepKeepsTheInvariant : Obligations.EveryStepKeepsTheInvariant := by
  intro s t hs h
  have hlengths := step_lengthsOk hs.lengths h
  obtain ⟨hold, hintensity, hwf, hunused, hstatus, hframed⟩ := id hs
  rcases step_next_cases h with rfl | ⟨tr, rest, -, -, rfl⟩ | ⟨tr, rest, -, -, rfl⟩ | ⟨chain, rev, rest, -, hk, rfl⟩
  · exact hs
  · exact ⟨hlengths, hintensity, hwf, hunused, hstatus, hframed⟩
  · exact transferBody_inv tr (s := State.advance { s with port := rest })
      ⟨hold, hintensity, hwf, hunused, hstatus, hframed⟩ hlengths
  · exact .of_reset hk rfl rfl rfl rfl rfl hframed rfl

end Sys2Proof.Machine

/-!
# What follows from the commands' rules

A command twice, or one command after another: SET_PIXEL or SET_ROW repeated, a FLUSH after a FLUSH, after SET_ROW_BITS, after
SET_VLEN and after reset, and whatever follows SHUTDOWN. What a FLUSH sends is `State.flushFrames`: nothing without a dirty
row (`State.flushFrames_of_clean`), and the same for states that agree on what it reads (`State.flushFrames_congr`).
-/

namespace Sys2Proof

/-- A row whose mask is every bit has one word. -/
theorem Opcode.selects_iff_of_mask_allOnes {o : Opcode} (h : o.mask = BitVec.allOnes 32) (c : CmdWord) :
    o.selects c = true ↔ c = o.pattern := by
  rw [Opcode.selects, h, BitVec.and_allOnes, decide_eq_true_iff]

theorem Opcode.shutdown_selects_iff (c : CmdWord) : Opcode.shutdown.selects c = true ↔ c = 0x80000000#32 :=
  Opcode.selects_iff_of_mask_allOnes rfl c

theorem decode_eq_shutdown_iff {t : Transfer} : decode t = .ok .shutdown ↔ t.c = 0x80000000#32 := by
  rw [← Opcode.shutdown_selects_iff, Opcode.selects, decide_eq_true_iff]
  exact decode_eq_ok_iff_row.trans (and_iff_left rfl)

end Sys2Proof

namespace Sys2Proof.Machine

/-! ### SET_PIXEL in the pixel view (R23, R110) -/

/-- A column is its module and its bit. -/
theorem column_eq_iff {c c' : Nat} : c = c' ↔ columnModule c = columnModule c' ∧ columnBit c = columnBit c' := by
  unfold columnModule columnBit
  omega

theorem columnBit_lt (c : Nat) : columnBit c < 8 := Nat.mod_lt c (by decide)

theorem setPixel_pixel {row : BitVec 8} {col : BitVec 16} (on : Bool) {s : State} (hcol : col.toNat < 8 * s.vlen) {r : Nat}
    (hr : r < 8) (c : Nat) :
    (commandBody (.setPixel row col on) s).pixel r c =
      if r = row.toNat ∧ c = col.toNat then on else s.pixel r c := by
  simp only [State.pixel, commandBody_readCell _ s hr, cellAfter, hcol, and_true, column_eq_iff (c := c)]
  by_cases hcell : r = row.toNat ∧ columnModule c = columnModule col.toNat
  · obtain ⟨hrow, hmodule⟩ := hcell
    rw [if_pos ⟨hrow, hmodule⟩, withBit_getLsbD _ on (columnBit_lt _) (columnBit_lt _)]
    simp only [hrow, hmodule, true_and]
  · rw [if_neg hcell, if_neg fun h => hcell ⟨h.1, h.2.1⟩]

/-- Settles O28, by the bit written and its place. -/
theorem setPixelWritesOnePixel : Obligations.SetPixelWritesOnePixel :=
  fun _ _ on s halive _ hcol => ⟨_, exec_alive _ halive, fun _ c hr => setPixel_pixel on (s := s.advance) hcol hr c⟩

/-! ### SET_PIXEL and SET_ROW repeated -/

/-- The commands of the corner case: SET_PIXEL and SET_ROW. -/
def Instr.MutatesBuffer (i : Instr) : Prop :=
  (∃ row col on, i = .setPixel row col on) ∨ ∃ row allOn, i = .setRow row allOn

theorem withBit_withBit (b : Byte) (k : Nat) (on : Bool) : withBit (withBit b k on) k on = withBit b k on := by
  cases on with
  | false => simp [withBit, BitVec.and_assoc]
  | true => simp [withBit, BitVec.or_assoc]

/-- On a state with the flags the command leaves, the command leaves them. -/
theorem dirtyAfter_of_dirty_eq {i : Instr} (hi : Instr.MutatesBuffer i) {s t : State} (hvlen : t.vlen = s.vlen)
    (h : t.dirty = dirtyAfter i s) : dirtyAfter i t = t.dirty := by
  rcases hi with ⟨row, col, on, rfl⟩ | ⟨row, allOn, rfl⟩
  · rw [dirtyAfter, hvlen, h, dirtyAfter]
    split
    · rw [BitVec.or_assoc, BitVec.or_self]
    · rfl
  · rw [dirtyAfter, h, dirtyAfter]
    split
    · rw [BitVec.or_assoc, BitVec.or_self]
    · rfl

/-- On a state with the cell the command leaves, the command leaves it. -/
theorem cellAfter_of_readCell_eq {i : Instr} (hi : Instr.MutatesBuffer i) {s t : State} (hvlen : t.vlen = s.vlen)
    {r m : Nat} (h : t.readCell r m = cellAfter i s r m) : cellAfter i t r m = t.readCell r m := by
  rcases hi with ⟨row, col, on, rfl⟩ | ⟨row, allOn, rfl⟩
  · rw [cellAfter, hvlen, h, cellAfter]
    split
    · exact withBit_withBit _ _ on
    · rfl
  · rw [cellAfter, hvlen, h, cellAfter]
    split
    · rfl
    · rfl

/-- Settles O33: the first run leaves the flags and the cells as the second would. -/
theorem repeatedMutationLeavesTheBuffer : Obligations.RepeatedMutationLeavesTheBuffer := by
  intro i s t u (hi : Instr.MutatesBuffer i) ht hu
  rcases exec_cases hu with ⟨-, rfl⟩ | ⟨halive, rfl⟩
  · exact ⟨rfl, fun _ _ _ => rfl⟩
  rcases exec_cases ht with ⟨hdead, rfl⟩ | ⟨-, rfl⟩
  · cases halive.symm.trans hdead
  have hvlen : (commandBody i s.advance).vlen = s.advance.vlen := (commandBody_keeps i _).vlen fun n hn => by
    rcases hi with ⟨_, _, _, rfl⟩ | ⟨_, _, rfl⟩ <;> cases hn
  refine ⟨?_, fun r m hr => ?_⟩
  · rw [commandBody_dirty]
    exact dirtyAfter_of_dirty_eq hi (t := (commandBody i s.advance).advance) hvlen (commandBody_dirty i s.advance)
  · rw [commandBody_readCell _ _ hr]
    exact cellAfter_of_readCell_eq hi (t := (commandBody i s.advance).advance) hvlen
      (commandBody_readCell i s.advance hr m)

/-! ### What a FLUSH sends -/

theorem State.flushFrames_of_clean {s : State} (h : s.dirty = 0x00#8) (rs : List Nat) : s.flushFrames rs = [] := by
  have hfilter : rs.filter s.isDirty = [] := by simp [State.isDirty, h]
  rw [State.flushFrames, hfilter, List.flatMap_nil]

/-- FLUSH reads `DIRTY`, `CHAIN`, `REV` and the dirty rows' cells below `CHAIN` (R133, R24). -/
theorem State.flushFrames_congr {s s' : State} (hdirty : s.dirty = s'.dirty) (hchain : s.chain = s'.chain)
    (hrev : s.rev = s'.rev)
    (hcells : ∀ r i, r < 8 → s.isDirty r = true → i < s.chain → s.readCell r i = s'.readCell r i) :
    s.flushFrames rows = s'.flushFrames rows := by
  have hsame : s'.isDirty = s.isDirty := funext (State.isDirty_congr hdirty.symm)
  unfold State.flushFrames
  rw [hsame]
  refine List.flatMap_congr fun r hr => ?_
  obtain ⟨hmem, hset⟩ := List.mem_filter.1 hr
  have hproj : s.proj r = s'.proj r := by
    rw [State.proj, State.proj, ← hchain, ← hrev]
    exact List.map_congr_left fun i hi => congrArg (enc s.rev) (hcells r i (mem_rows.1 hmem) hset (List.mem_range.1 hi))
  rw [hproj]

/-- With no row dirty and `STATUS` at OK a FLUSH changes `CI` alone. -/
theorem exec_flush_of_clean {s : State} (halive : s.life = .alive) (hdirty : s.dirty = 0x00#8) (hstatus : s.status = 0x00#8) :
    exec .flush s = .next { s with ci := s.ci + 1 } := by
  rw [exec_flush_alive halive, State.flushFrames_of_clean hdirty, List.append_nil]
  obtain ⟨⟩ := s
  cases hdirty
  cases hstatus
  rfl

/-- Settles O36: the first FLUSH leaves no flag for the second. -/
theorem secondFlushEmitsNothing : Obligations.SecondFlushEmitsNothing :=
  fun _ halive => ⟨_, exec_flush_alive halive, exec_flush_of_clean halive rfl rfl⟩

/-- Settles O37: both states send the same frames. -/
theorem flushReadsOnlyDirtyPhysicalCells : Obligations.FlushReadsOnlyDirtyPhysicalCells := by
  intro s s' t t' halive halive' hdirty hchain hrev hcells ht ht'
  cases (exec_flush_alive halive).symm.trans ht
  cases (exec_flush_alive halive').symm.trans ht'
  refine ⟨s.flushFrames rows, rfl, ?_⟩
  rw [State.flushFrames_congr hdirty hchain hrev hcells]

/-! ### FLUSH after SET_ROW_BITS (R242) -/

/-- Frames to other addresses leave what a register holds. -/
theorem wimg_frameEvents_of_ne {fs : List (Byte × List Byte)} {a : Byte} (h : ∀ f ∈ fs, f.1 ≠ a)
    (es : List Event) (k : Nat) : wimg (es ++ frameEvents fs) k a = wimg es k a := by
  induction fs generalizing es with
  | nil => rw [frameEvents_nil, List.append_nil]
  | cons f fs ih =>
    obtain ⟨hf, hfs⟩ := List.forall_mem_cons.1 h
    have hcons : frameEvents (f :: fs) = frame f.1 f.2 ++ frameEvents fs := List.flatMap_cons
    rw [hcons, ← List.append_assoc, ih hfs, wimg_frame, if_neg fun hin => hf hin.1]

/-- A FLUSH leaves what the wire holds of a clean row. -/
theorem flush_wimg_of_clean {s : State} {r : Nat} (hr : r < 8) (h : s.isDirty r = false) (k : Nat) :
    wimg (commandBody .flush s).events k (wireAddr r) = wimg s.events k (wireAddr r) := by
  rw [commandBody_events]
  refine wimg_frameEvents_of_ne (fun f hf => ?_) _ k
  obtain ⟨r', hr', rfl⟩ := List.mem_map.1 hf
  obtain ⟨hmem, hset⟩ := List.mem_filter.1 hr'
  intro haddr
  rw [(wireAddr_inj (mem_rows.1 hmem) hr).1 haddr, h] at hset
  cases hset

/-- SET_ROW_BITS puts the operand's bytes on the wire (R114). -/
theorem setRowBits_wimg {row : BitVec 8} (data : DataWord) {s : State} (hrow : row.toNat < 8) {k : Nat} (hk : k < s.chain) :
    wimg (commandBody (.setRowBits row data) s).events k (wireAddr row.toNat) = some (rawByte data k) := by
  rw [commandBody_events, sentFrames, if_pos hrow, frameEvents_singleton, wimg_frame]
  simp [hk]

/-- Settles O32: the row is clean, so the FLUSH sends no frame to its register. -/
theorem flushDoesNotResyncRawBits : Obligations.FlushDoesNotResyncRawBits := by
  intro row data s halive hrow hclean
  have hinside := setRowBits_inside data s.advance hrow
  have halive' : (commandBody (.setRowBits row data) s.advance).life = .alive := (commandBody_life ..).trans halive
  have hclean' : (commandBody (.setRowBits row data) s.advance).isDirty row.toNat = false :=
    (State.isDirty_congr (setRowBits_dirty row data s.advance) _).trans hclean
  refine ⟨_, _, exec_alive _ halive, exec_alive _ halive', ?_, hclean', fun k hk => ?_⟩
  · rw [flush_eq, hinside]
    rfl
  · exact (flush_wimg_of_clean (s := State.advance _) hrow hclean' k).trans (setRowBits_wimg data hrow hk)

/-! ### FLUSH after SET_VLEN (R170) and after reset (R232) -/

/-- With every flag set and every cell 0x00 all eight rows are sent, each byte 0x00 whatever `REV`. -/
theorem State.flushFrames_of_blank {s : State} (hdirty : s.dirty = 0xFF#8) (hvb : s.vb = Memory.zeroed) :
    s.flushFrames rows = rows.flatMap fun r => registerFrame s.chain (wireAddr r) 0x00#8 := by
  have hall : rows.filter s.isDirty = rows :=
    List.filter_eq_self.2 fun r hr => isDirty_of_dirty_eq_ones hdirty (mem_rows.1 hr)
  have hproj : ∀ r, s.proj r = List.replicate s.chain 0x00#8 := fun r => by
    simp [State.proj, State.readCell, hvb]
  simp only [State.flushFrames, hall, hproj, registerFrame]

/-- Settles O45: SET_VLEN sets every flag and zeroes every cell. -/
theorem flushAfterSetVlenBlanksTheDisplay : Obligations.FlushAfterSetVlenBlanksTheDisplay := by
  intro n s halive hchain hvmax
  have hinside := setVlen_inside (s := s.advance) hchain hvmax
  refine ⟨_, _, (exec_alive _ halive).trans (congrArg _ hinside), exec_flush_alive halive, rfl, ?_⟩
  refine congrArg (s.events ++ ·) ((State.flushFrames_of_blank rfl rfl).trans ?_)
  simp only [registerFrame_eq]
  rfl

/-- Settles O19: the initialization frames put 0x00 in every row register, and no row is dirty. -/
theorem resetLeavesRowsSynced : Obligations.ResetLeavesRowsSynced := by
  intro k _ hp
  have hclean : (State.resetWith k).CleanRowsSynced := cleanRowsSynced_of_initFrames (es := []) hp rfl rfl
  refine ⟨fun r hr => hclean r hr BitVec.getLsbD_zero, fun r m hr hm => wimg_initFrames hp hm hr [], _,
    exec_flush_alive rfl, ?_⟩
  exact (congrArg _ (State.flushFrames_of_clean rfl rows)).trans (List.append_nil _)

/-! ### SHUTDOWN (R174) -/

theorem shutdown_eq (s : State) :
    commandBody .shutdown s =
      { s with
        status := 0x00#8
        life := .dead
        events := s.events ++ [.sel] ++
          List.replicate s.chain (.wr s.params.regShutdown s.params.valShutdownEnter) ++ [.desel] } := by
  rw [commandBody, State.writeRegister_eq]
  rfl

/-- Settles O49: the row of the opcode map, the body, and the refusal of a dead block. -/
theorem shutdownRule : Obligations.ShutdownRule := by
  refine ⟨fun _ => decode_eq_shutdown_iff, fun t hop hne => ?illegal, fun s halive => ?effect⟩
  case illegal => exact decode_error_of_not_selects .shutdown hop (mt (Opcode.shutdown_selects_iff t.c).1 hne)
  case effect => exact ⟨_, exec_alive _ halive, shutdown_eq s.advance, fun i => exec_dead i rfl⟩

end Sys2Proof.Machine

/-!
# The observation port (10_state.md R23, R34)

Two states look alike through the port when they agree on the cells below `VLEN`, the registers and the stream (`Alike`). With
`CHAIN ≤ VLEN` a command reads nothing else but the parameters, so each field it leaves is the same for both; that no cell at or
beyond `VLEN` is observable is then a special case (R22).
-/

namespace Sys2Proof.Machine

/-! ### The pixel view -/

theorem observeCell_inside {s : State} {r m : Nat} (hr : r < 8) (hm : m < s.vlen) :
    observeCell s r m = .ok (s.readCell r m) :=
  if_pos ⟨hr, hm⟩

theorem observeCell_outside {s : State} {r m : Nat} (h : ¬ (r < 8 ∧ m < s.vlen)) :
    observeCell s r m = .error (.outsideBuffer r m) :=
  if_neg h

/-- A column lies in the buffer exactly when its module does. -/
theorem columnModule_lt_iff {c n : Nat} : columnModule c < n ↔ c < 8 * n := by
  unfold columnModule
  omega

/-- Settles O56: a pixel is one bit of one cell, and the port reads that cell. -/
theorem pixelView : Obligations.PixelView := by
  refine ⟨fun _ _ _ => rfl, fun s r c hr hc => ?inside, fun s r c hout => ?outside, fun _ _ => rfl, fun s r hv => ?last⟩
  case inside =>
    rw [observePixel, observeCell_inside hr (columnModule_lt_iff.2 hc)]
    rfl
  case outside =>
    refine ⟨.outsideBuffer r (columnModule c), ?_⟩
    rw [observePixel, observeCell_outside (by rwa [columnModule_lt_iff])]
  case last =>
    have hcol : 8 * s.vlen - 1 = 8 * (s.vlen - 1) + 7 := by omega
    rw [hcol, s.pixel_eq r (s.vlen - 1) (by decide)]

/-! ### States that look alike -/

/-- All that the port shows of two states is the same (R34). -/
structure Alike (s s' : State) : Prop where
  cells : ∀ r m, r < 8 → m < s.vlen → s.readCell r m = s'.readCell r m
  vlen : s.vlen = s'.vlen
  dirty : s.dirty = s'.dirty
  chain : s.chain = s'.chain
  rev : s.rev = s'.rev
  status : s.status = s'.status
  result : s.result = s'.result
  life : s.life = s'.life
  events : s.events = s'.events

theorem Alike.observe_eq {s s' : State} (h : Alike s s') : observe s = observe s' := by
  have hbuffer : (rows.map fun r => (List.range s.vlen).map (s.readCell r)) =
      rows.map fun r => (List.range s'.vlen).map (s'.readCell r) := by
    rw [← h.vlen]
    exact List.map_congr_left fun r hr => List.map_congr_left fun m hm => h.cells r m (mem_rows.1 hr) (List.mem_range.1 hm)
  rw [observe, observe, hbuffer, h.vlen, h.dirty, h.chain, h.rev, h.status, h.result, h.life, h.events]

theorem Alike.of_observe_eq {s s' : State} (h : observe s = observe s') : Alike s s' := by
  simp only [observe, Observation.mk.injEq] at h
  obtain ⟨hbuffer, hvlen, hdirty, hchain, hrev, hstatus, hresult, hlife, hevents⟩ := h
  refine ⟨fun r m hr hm => ?_, hvlen, hdirty, hchain, hrev, hstatus, hresult, hlife, hevents⟩
  rw [← hvlen] at hbuffer
  have hrow := List.map_inj_left.1 hbuffer r (mem_rows.2 hr)
  exact List.map_inj_left.1 hrow m (List.mem_range.2 hm)

section
variable {s s' : State} (h : Alike s s') (hp : s.params = s'.params)
include h

/-! ### What a command leaves in each field -/

theorem Alike.resultAfter_eq (i : Instr) : resultAfter i s = resultAfter i s' := by
  cases i with
  | reverse b => rfl
  | _ => exact h.result

theorem Alike.lifeAfter_eq (i : Instr) : lifeAfter i s = lifeAfter i s' := by
  cases i with
  | shutdown => rfl
  | _ => exact h.life

include hp

theorem Alike.vlenAfter_eq (i : Instr) : vlenAfter i s = vlenAfter i s' := by
  cases i with
  | setVlen n => simp only [vlenAfter, h.chain, h.vlen, hp]
  | _ => exact h.vlen

theorem Alike.dirtyAfter_eq (i : Instr) : dirtyAfter i s = dirtyAfter i s' := by
  cases i with
  | setPixel row col on => simp only [dirtyAfter, h.vlen, h.dirty]
  | setRow row allOn => simp only [dirtyAfter, h.dirty]
  | setVlen n => simp only [dirtyAfter, h.chain, h.dirty, hp]
  | flush => rfl
  | _ => exact h.dirty

theorem Alike.statusAfter_eq (i : Instr) : statusAfter i s = statusAfter i s' := by
  cases i with
  | setVlen n => simp only [statusAfter, h.chain, hp]
  | _ => rfl

/-- A cell below the new `VLEN` is made of cells below the old one. -/
theorem Alike.cellAfter_eq (i : Instr) {r m : Nat} (hr : r < 8) (hm : m < vlenAfter i s) :
    cellAfter i s r m = cellAfter i s' r m := by
  cases i with
  | setPixel row col on => rw [cellAfter, cellAfter, h.cells r m hr hm, h.vlen]
  | setRow row allOn => rw [cellAfter, cellAfter, h.cells r m hr hm, h.vlen]
  | scroll wrap =>
    have hm : m < s.vlen := hm
    rw [cellAfter, cellAfter, shiftedCell, shiftedCell, bitShiftedIn, bitShiftedIn, ← h.vlen, ← h.cells r m hr hm]
    by_cases hnext : m + 1 < s.vlen
    · rw [h.cells r (m + 1) hr hnext]
    · simp only [if_neg hnext]
  | setVlen n =>
    rw [vlenAfter] at hm
    rw [cellAfter, cellAfter, ← h.chain, ← hp]
    split
    case isTrue => rfl
    case isFalse hout =>
      rw [if_neg hout] at hm
      exact h.cells r m hr hm
  | _ => exact h.cells r m hr hm

/-- The frames hold cells of modules below `CHAIN`, and so below `VLEN`. -/
theorem Alike.sentFrames_eq (i : Instr) (hlow : s.chain ≤ s.vlen) : sentFrames i s = sentFrames i s' := by
  have hrow : ∀ {cell cell' : Nat → Nat → Byte} {r : Nat}, (∀ m, m < s.vlen → cell r m = cell' r m) →
      rowFrame s cell r = rowFrame s' cell' r := fun {cell cell' r} hcells => by
    rw [rowFrame, rowFrame, ← h.chain, ← h.rev]
    refine congrArg (Prod.mk _) (List.map_congr_left fun m hm => ?_)
    rw [hcells m ((List.mem_range.1 hm).trans_le hlow)]
  cases i with
  | setRowBits row data => rw [sentFrames, sentFrames, h.chain]
  | flush =>
    have hsame : s.isDirty = s'.isDirty := funext (State.isDirty_congr h.dirty)
    rw [sentFrames, sentFrames, ← hsame]
    exact List.map_congr_left fun r hr => hrow fun m hm => h.cells r m (mem_rows.1 (List.mem_of_mem_filter hr)) hm
  | scroll wrap =>
    exact List.map_congr_left fun r hr => hrow fun m hm => h.cellAfter_eq hp (.scroll wrap) (mem_rows.1 hr) hm
  | setIntensity level => rw [sentFrames, sentFrames, h.chain, hp]
  | shutdown => rw [sentFrames, sentFrames, h.chain, hp]
  | _ => rfl

/-- A command takes states that look alike to states that look alike. -/
theorem Alike.commandBody (i : Instr) (hlow : s.chain ≤ s.vlen) : Alike (commandBody i s) (commandBody i s') := by
  have hkeeps := commandBody_keeps i s
  have hkeeps' := commandBody_keeps i s'
  refine ⟨fun r m hr hm => ?_, ?_, ?_, ?_, ?_, ?_, ?_, ?_, ?_⟩
  · rw [commandBody_vlen] at hm
    rw [commandBody_readCell i s hr, commandBody_readCell i s' hr, h.cellAfter_eq hp i hr hm]
  · rw [commandBody_vlen, commandBody_vlen, h.vlenAfter_eq hp]
  · rw [commandBody_dirty, commandBody_dirty, h.dirtyAfter_eq hp]
  · rw [hkeeps.chain, hkeeps'.chain, h.chain]
  · rw [hkeeps.rev, hkeeps'.rev, h.rev]
  · rw [commandBody_status, commandBody_status, h.statusAfter_eq hp]
  · rw [commandBody_result, commandBody_result, h.resultAfter_eq]
  · rw [commandBody_life, commandBody_life, h.lifeAfter_eq]
  · rw [commandBody_events, commandBody_events, h.sentFrames_eq hp i hlow, h.events]

end

/-- Settles O57: alike states are both dead or both alive, and the body keeps them alike. -/
theorem observationDeterminesTheNext : Obligations.ObservationDeterminesTheNext := by
  intro i s s' t t' hlow hobs hp ht ht'
  have halike := Alike.of_observe_eq hobs
  rcases exec_cases ht with ⟨hlife, rfl⟩ | ⟨hlife, rfl⟩ <;>
    rcases exec_cases ht' with ⟨hlife', rfl⟩ | ⟨hlife', rfl⟩
  · exact hobs
  · cases (hlife.symm.trans halike.life).trans hlife'
  · cases (hlife.symm.trans halike.life).trans hlife'
  · have hadvance : Alike s.advance s'.advance := Alike.of_observe_eq hobs
    exact (hadvance.commandBody hp i hlow).observe_eq

/-! ### The unused storage (R22) -/

/-- Two states that differ in cells at or beyond `VLEN` only look alike. -/
theorem Alike.of_cells {s : State} {vb : Memory}
    (h : ∀ r m, r < 8 → m < s.vlen → State.readCell { s with vb := vb } r m = s.readCell r m) :
    Alike s { s with vb := vb } :=
  ⟨fun r m hr hm => (h r m hr hm).symm, rfl, rfl, rfl, rfl, rfl, rfl, rfl, rfl⟩

theorem exec_readCell_of_beyond {i : Instr} (hi : ∀ n, i ≠ .setVlen n) {s t : State} (h : exec i s = .next t) {r m : Nat}
    (hr : r < 8) (hm : s.vlen ≤ m) : t.readCell r m = s.readCell r m := by
  rcases exec_cases h with ⟨-, rfl⟩ | ⟨-, rfl⟩
  · rfl
  · exact (commandBody_readCell i s.advance hr m).trans (cellAfter_of_beyond hi (s := s.advance) hm r)

theorem exec_unusedZero {i : Instr} {s t : State} (hs : s.UnusedZero) (h : exec i s = .next t) : t.UnusedZero := by
  rcases exec_cases h with ⟨-, rfl⟩ | ⟨-, rfl⟩
  · exact hs
  · exact commandBody_unusedZero i (s := s.advance) hs

/-- Settles O47: the cells by `cellAfter_of_beyond`, what the host sees by `observationDeterminesTheNext`. -/
theorem unusedStorage : Obligations.UnusedStorage :=
  ⟨fun _ _ _ _ _ => Memory.readAt_zeroed _, fun _ _ _ => exec_unusedZero,
    fun _ _ _ hi h _ _ hr hm => exec_readCell_of_beyond hi h hr hm,
    fun _ _ _ hm => observeCell_outside fun h => absurd h.2 (Nat.not_lt.2 hm),
    fun i _ t t' _ hlow hcells ht ht' =>
      observationDeterminesTheNext i _ _ t t' hlow (Alike.of_cells hcells).observe_eq rfl ht ht'⟩

end Sys2Proof.Machine
